-- ==== Sys2Proof/Word.lean ====
section
/-! DEFINITION. The words of the model: 32-bit register values, 4-bit register numbers, 64-bit counts. -/

namespace Sys2Proof

/-- A 32-bit value, bit 0 the least significant (00_scope.md R5; 10_state.md R20). Also an instruction word (R76, R77). -/
abbrev Word := BitVec 32

/-- The number `t` of a general-purpose register, four bits wide (10_state.md R46; 30_encoding.md R76). -/
abbrev RegNum := BitVec 4

/-- A value of the physical counter or of one of its offsets (60_exceptions.md R136, D16: log 19). -/
abbrev Count := BitVec 64

end Sys2Proof
end

