-- ==== Sys2Proof/Config.lean ====
section
/-! DEFINITION. What an implementation fixes (the seven parameters of 00_scope.md R3) and the free values. -/

namespace Sys2Proof

/-- The static parameters of 00_scope.md R3, every one left open by the spec (D1, D21). They are plain data that
the machine's state carries and no step changes, so a statement about every state holds for every setting (log 2). -/
structure Config where
  /-- `AARCH32_ANY_EL`: AArch32 is supported at any Exception level. -/
  aarch32AnyEl : Bool
  /-- `FEAT_TRF` is implemented. -/
  featTrf : Bool
  /-- `FEAT_ECV` is implemented. -/
  featEcv : Bool
  /-- `HAVE_EL2`: EL2 is implemented. No rule reads it but through the input `ctx.EL2Enabled` (R3, D23). -/
  haveEl2 : Bool
  /-- `HAVE_EL3`: `HaveEL(EL3)`. -/
  haveEl3 : Bool
  /-- `SDD_PRIORITY`: the IMPLEMENTATION_DEFINED Boolean "EL3 trap priority when SDD == '1'" (U1). -/
  sddPriority : Bool
  /-- `RES0_STORAGE`: the reserved bits are storage (TRUE) or hardwired zeros (FALSE) (10_state.md R24). -/
  res0Storage : Bool
deriving DecidableEq, Repr

/-- FREE VALUE: bits [6:5] of the `n`-th draw, for a read of TS while it is UNKNOWN (10_state.md R32; log 6). -/
opaque Config.freeTs : Nat → BitVec 2

/-- FREE VALUE: bits [31:7] after a reset with `RES0_STORAGE` TRUE (70_reset_and_hazards.md R150; log 7). -/
opaque Config.freeResHi : Nat → BitVec 25

/-- FREE VALUE: bits [4:2] after a reset with `RES0_STORAGE` TRUE (70_reset_and_hazards.md R150; log 7). -/
opaque Config.freeResLo : Nat → BitVec 3

/-- FREE VALUE: which of the values held since the last ContextSync a trace function uses
(70_reset_and_hazards.md R155; log 16). -/
opaque Config.freeChoice : Nat → Nat

/-- FREE VALUE: the traced timestamp of an Unconstrained choice (60_exceptions.md R136; log 15). -/
opaque Config.freeStamp : Nat → Count

end Sys2Proof
end

