-- ==== Sys2Proof/Syntax.lean ====
section
/-! DEFINITION. The instructions: one constructor for each of the four rows of spec/opcode_table.json. -/

namespace Sys2Proof

/-- The two instruction sets that encode the access forms (30_encoding.md R76, R77). -/
inductive InstrSet where
  | a32
  | t32
deriving DecidableEq, Repr

/-- The fifteen condition names of 95_test_vectors.md section 2.8, codes `0b0000` to `0b1110` in this order
(30_encoding.md R75, R76; `0b1111` does not encode these instructions). -/
inductive Cond where
  | eq | ne | cs | cc | mi | pl | vs | vc | hi | ls | ge | lt | gt | le | al
deriving DecidableEq, Repr

/-- An access to TRFCR (30_encoding.md R71 to R78). -/
inductive Instr where
  /-- `MRC<c> p15, 0, <Rt>, c1, c2, 1`, A32: read TRFCR into `rt` (R100). -/
  | mrcTrfcrA32 (cond : Cond) (rt : RegNum)
  /-- `MCR<c> p15, 0, <Rt>, c1, c2, 1`, A32: write `rt` to TRFCR (R101). -/
  | mcrTrfcrA32 (cond : Cond) (rt : RegNum)
  /-- `MRC p15, 0, <Rt>, c1, c2, 1`, T32: read TRFCR into `rt` (R100); its condition is the IT block's (R77). -/
  | mrcTrfcrT32 (rt : RegNum)
  /-- `MCR p15, 0, <Rt>, c1, c2, 1`, T32: write `rt` to TRFCR (R101); its condition is the IT block's (R77). -/
  | mcrTrfcrT32 (rt : RegNum)
deriving DecidableEq, Repr

/-- The instruction set an instruction is encoded in. -/
def Instr.iset : Instr → InstrSet
  | .mrcTrfcrA32 _ _ => .a32
  | .mcrTrfcrA32 _ _ => .a32
  | .mrcTrfcrT32 _ => .t32
  | .mcrTrfcrT32 _ => .t32

/-- The general-purpose register transferred (30_encoding.md R73). -/
def Instr.rt : Instr → RegNum
  | .mrcTrfcrA32 _ rt => rt
  | .mcrTrfcrA32 _ rt => rt
  | .mrcTrfcrT32 rt => rt
  | .mcrTrfcrT32 rt => rt

/-- TRUE for the read form `MRC`, FALSE for the write form `MCR` (30_encoding.md R81). -/
def Instr.isRead : Instr → Bool
  | .mrcTrfcrA32 _ _ => true
  | .mcrTrfcrA32 _ _ => false
  | .mrcTrfcrT32 _ => true
  | .mcrTrfcrT32 _ => false

end Sys2Proof
end

