-- ==== Sys2Proof/Machine/Operands.lean ====
section
/-! DEFINITION. The one operand form the two instructions have: the register number `Rt` (30_encoding.md R73, R80). -/

namespace Sys2Proof.Machine

/-- 30_encoding.md R80: `t` from 0 to 14 in A32, from 0 to 12 and 14 in T32 (D9: log 10). -/
def rtAdmitted : InstrSet → RegNum → Bool
  | .a32, rt => rt != 15#4
  | .t32, rt => rt != 15#4 && rt != 13#4

end Sys2Proof.Machine
end

