-- ==== Sys2Proof/WellFormed.lean ====
section
/-! DEFINITION. Which instructions of the syntax the hardware has: those whose register number is admitted. -/

namespace Sys2Proof

/-- An instruction whose `Rt` is admitted in its instruction set (30_encoding.md R80). The condition field needs no
check: `Cond` has no name for `0b1111` (R76). -/
def Instr.wellFormed (i : Instr) : Bool :=
  Machine.rtAdmitted i.iset i.rt

end Sys2Proof
end

