-- ==== Sys2Proof/Decode.lean ====
section
/-! DEFINITION. Decoding a 32-bit instruction value, and the encoder, both from the layouts of 30_encoding.md R76, R77. -/

namespace Sys2Proof

/-- A register's place in the System register space (10_state.md R50). -/
structure SysRegAddr where
  coproc : BitVec 4
  opc1 : BitVec 3
  crn : BitVec 4
  crm : BitVec 4
  opc2 : BitVec 3
deriving DecidableEq, Repr

/-- TRFCR's place (30_encoding.md R72). -/
def trfcrAddr : SysRegAddr :=
  { coproc := 0b1111#4, opc1 := 0b000#3, crn := 0b0001#4, crm := 0b0010#4, opc2 := 0b001#3 }

/-- Bits [31:28]: `cond` in A32, `1110` in T32 (R76, R77). -/
def condField (w : Word) : BitVec 4 := w.extractLsb' 28 4

/-- Bits [27:24]: `1110` (R76). -/
def opField (w : Word) : BitVec 4 := w.extractLsb' 24 4

/-- Bit 20, `L`: 1 for `MRC`, 0 for `MCR` (R76, R81). -/
def directionField (w : Word) : BitVec 1 := w.extractLsb' 20 1

/-- Bits [15:12]: `Rt` (R76). -/
def rtField (w : Word) : RegNum := w.extractLsb' 12 4

/-- Bit 4: `1` (R76). -/
def markField (w : Word) : BitVec 1 := w.extractLsb' 4 1

/-- The five selecting fields of a word: coproc [11:8], opc1 [23:21], CRn [19:16], CRm [3:0], opc2 [7:5] (R76). -/
def sysRegAddrOf (w : Word) : SysRegAddr :=
  { coproc := w.extractLsb' 8 4
    opc1 := w.extractLsb' 21 3
    crn := w.extractLsb' 16 4
    crm := w.extractLsb' 0 4
    opc2 := w.extractLsb' 5 3 }

/-- A word is an `MRC` or `MCR` whose fields name TRFCR (R72, R76), whatever bits [31:28] hold. -/
def namesTrfcr (w : Word) : Bool :=
  opField w == 0b1110#4 && markField w == 1#1 && sysRegAddrOf w == trfcrAddr

/-- The condition's code (95_test_vectors.md section 2.8). -/
def condCode : Cond → BitVec 4
  | .eq => 0b0000#4
  | .ne => 0b0001#4
  | .cs => 0b0010#4
  | .cc => 0b0011#4
  | .mi => 0b0100#4
  | .pl => 0b0101#4
  | .vs => 0b0110#4
  | .vc => 0b0111#4
  | .hi => 0b1000#4
  | .ls => 0b1001#4
  | .ge => 0b1010#4
  | .lt => 0b1011#4
  | .gt => 0b1100#4
  | .le => 0b1101#4
  | .al => 0b1110#4

/-- The condition a code stands for; none for `0b1111` (R76). -/
def condOfCode (c : BitVec 4) : Option Cond :=
  match c.toNat with
  | 0 => some .eq
  | 1 => some .ne
  | 2 => some .cs
  | 3 => some .cc
  | 4 => some .mi
  | 5 => some .pl
  | 6 => some .vs
  | 7 => some .vc
  | 8 => some .hi
  | 9 => some .ls
  | 10 => some .ge
  | 11 => some .lt
  | 12 => some .gt
  | 13 => some .le
  | 14 => some .al
  | _ => none

/-- Why a word is no instruction of this hardware. -/
inductive DecodeRefusal where
  /-- A word that is not an access to TRFCR: a neighbouring encoding, or A32 with cond `0b1111` (R76, R79). -/
  | notThisHardware (w : Word)
  /-- An access to TRFCR whose register number the model gives no meaning (R80). -/
  | registerNotAdmitted (rt : RegNum)
deriving DecidableEq, Repr

/-- What a word decodes to. -/
inductive Decoded where
  | instr (i : Instr)
  | refused (r : DecodeRefusal)
deriving DecidableEq, Repr

/-- The read or the write form, by the direction bit (R81). -/
def formOf (iset : InstrSet) (c : Cond) (dir : BitVec 1) (rt : RegNum) : Instr :=
  match iset with
  | .a32 => if dir == 1#1 then .mrcTrfcrA32 c rt else .mcrTrfcrA32 c rt
  | .t32 => if dir == 1#1 then .mrcTrfcrT32 rt else .mcrTrfcrT32 rt

/-- Bits [31:28] as the instruction set reads them: a condition in A32 (R76), the fixed `1110` in T32 (R77). -/
def headOf : InstrSet → BitVec 4 → Option Cond
  | .a32, c => condOfCode c
  | .t32, c => if c == 0b1110#4 then some .al else none

/-- Decoding, total on 32-bit values; which instruction set is in force is an input (R77; log 12). -/
def decode (iset : InstrSet) (w : Word) : Decoded :=
  if namesTrfcr w then
    match headOf iset (condField w) with
    | none => .refused (.notThisHardware w)
    | some c =>
      if Machine.rtAdmitted iset (rtField w) then .instr (formOf iset c (directionField w) (rtField w))
      else .refused (.registerNotAdmitted (rtField w))
  else .refused (.notThisHardware w)

/-- The condition field an instruction is encoded with: its condition in A32, `1110` in T32 (R76, R77). -/
def headField : Instr → BitVec 4
  | .mrcTrfcrA32 c _ => condCode c
  | .mcrTrfcrA32 c _ => condCode c
  | .mrcTrfcrT32 _ => 0b1110#4
  | .mcrTrfcrT32 _ => 0b1110#4

/-- The word of an instruction: cond, `1110`, opc1, L, CRn, Rt, coproc, opc2, `1`, CRm from bit 31 down (R76). -/
def encode (i : Instr) : Word :=
  headField i ++ 0b1110#4 ++ 0b000#3 ++ BitVec.ofBool i.isRead ++ 0b0001#4 ++ i.rt ++ 0b1111#4 ++ 0b001#3 ++ 1#1 ++ 0b0010#4

/-- The 32-bit value of an instruction whose `nbits` low bits are `w` and whose other bits are 0. The table numbers a
row's bits as one 32-bit value with the first T32 halfword in bits [31:16] (R77), and the spec fixes no byte order
(20_memory.md R61), so no bytes are laid out. -/
def tableWord (nbits w : Nat) : Word := BitVec.ofNat 32 (w % 2 ^ nbits)

/-- What the decoder reads from a table word. A word of the T32 rows is the same number as an A32 word with condition
AL (R77), and the word alone does not say which set is in force, so it is read as A32, the set in force at
`State.reset` (log 12). -/
def decodeTableWord (nbits w : Nat) : Option Instr :=
  match decode .a32 (tableWord nbits w) with
  | .instr i => some i
  | .refused _ => none

end Sys2Proof
end

