-- ==== Sys2Proof/Machine/State.lean ====
section
/-! DEFINITION. The state of the machine as plain data, why a step can stop, and the state after reset. -/

namespace Sys2Proof.Machine

/-- TS, bits [6:5]: a 2-bit value or the mark `unknown` that a reset sets (10_state.md R32, R44; log 6). The mark is
the spec's own state: a read of a marked TS succeeds (90_conflicts.md C10). -/
inductive TsField where
  | unknown
  | known (v : BitVec 2)
deriving DecidableEq, Repr

/-- The register (10_state.md R23, R44). `resHi` and `resLo` are storage only when `RES0_STORAGE` is TRUE: no rule
reads them otherwise (R24, R33; log 7). -/
structure Trfcr where
  /-- Bits [31:7]. -/
  resHi : BitVec 25
  /-- Bits [6:5]. -/
  ts : TsField
  /-- Bits [4:2]. -/
  resLo : BitVec 3
  /-- Bit [1]. -/
  e1tre : BitVec 1
  /-- Bit [0]. -/
  e0tre : BitVec 1
deriving DecidableEq, Repr

/-- `PSTATE.EL` (10_state.md R45). -/
inductive ExceptionLevel where
  | el0 | el1 | el2 | el3
deriving DecidableEq, Repr

/-- The context record `ctx` of 10_state.md R45: what other parts of the processor own. The machine reads it and only
an event of the environment changes it. No relation between the inputs is assumed (R98, D23: log 20). -/
structure Ctx where
  /-- `PSTATE.EL`. -/
  el : ExceptionLevel
  /-- `M_is_Monitor`: `PSTATE.M == M32_Monitor`. -/
  mIsMonitor : Bool
  /-- `Halted()`. -/
  halted : Bool
  /-- `EDSCR.SDD`. -/
  edscrSdd : BitVec 1
  /-- `ELUsingAArch32(EL3)`. -/
  el3IsAArch32 : Bool
  /-- `ELUsingAArch32(EL2)`. -/
  el2IsAArch32 : Bool
  /-- `EL2Enabled()`. -/
  el2Enabled : Bool
  /-- `MDCR_EL3.TTRF`. -/
  mdcrEl3Ttrf : BitVec 1
  /-- `SDCR.TTRF`. -/
  sdcrTtrf : BitVec 1
  /-- `HSTR_EL2.T1`. -/
  hstrEl2T1 : BitVec 1
  /-- `HSTR.T1`. -/
  hstrT1 : BitVec 1
  /-- `MDCR_EL2.TTRF`. -/
  mdcrEl2Ttrf : BitVec 1
  /-- `HDCR.TTRF`. -/
  hdcrTtrf : BitVec 1
  /-- `SelfHostedTraceEnabled()`. -/
  selfHostedTraceEnabled : Bool
  /-- `HTRFCR.TS`. -/
  htrfcrTs : BitVec 2
  /-- `HCR.TGE`. -/
  hcrTge : BitVec 1
  /-- `CNTHCTL_EL2.ECV`. -/
  cnthctlEl2Ecv : BitVec 1
  /-- `SCR_EL3.ECVEn`. -/
  scrEl3EcvEn : BitVec 1
  /-- `HCR_EL2.E2H`. -/
  hcrEl2E2h : BitVec 1
  /-- `HCR_EL2.TGE`; not equated with `HCR.TGE` (90_conflicts.md C2). -/
  hcrEl2Tge : BitVec 1
  /-- `InPL1Mode`: the processor is in a PL1 mode (R37, D19). -/
  inPl1Mode : Bool
  /-- `PhysCount`: the physical counter value. -/
  physCount : Count
  /-- `CNTVOFF`. -/
  cntvoff : Count
  /-- `CNTPOFF_EL2`. -/
  cntpoffEl2 : Count
deriving DecidableEq, Repr

/-- How the processor issues instructions: inputs of the encoding rules (30_encoding.md R75, R77; logs 11, 12). -/
structure Issue where
  /-- The current instruction-set state (R77). -/
  iset : InstrSet
  /-- The condition of the enclosing `IT` block, `al` outside one (R77). -/
  itCond : Cond
  /-- The conditions that hold at present; how one is evaluated is not in the spec (R48, R75). -/
  condsHolding : List Cond
deriving DecidableEq, Repr

/-- The six outcomes of one access (40_sysreg_access.md R91). `code` is the uninterpreted argument `0x03` (R125). -/
inductive AccessOutcome where
  | access
  | undefined
  | trapEL2A64 (code : BitVec 8)
  | trapHyp (code : BitVec 8)
  | trapEL3A64 (code : BitVec 8)
  | trapMonitor
deriving DecidableEq, Repr

/-- What this register says about tracing (60_exceptions.md R133). -/
inductive TraceVerdict where
  | prohibited
  | allowed
  | noSay
deriving DecidableEq, Repr

/-- Which timebase this register selects (60_exceptions.md R135). -/
inductive TimebaseChoice where
  | virtualTime
  | guestPhysical
  | physical
  | unconstrained
  | noSay
deriving DecidableEq, Repr

/-- What one evaluation of the timebase gave: the choice, and the traced timestamp unless the register does not
determine it (60_exceptions.md R136). -/
structure TimebaseSample where
  choice : TimebaseChoice
  stamp : Option Count
deriving DecidableEq, Repr

/-- What another agent than the two instructions does (00_scope.md R10). -/
inductive Event where
  /-- `WarmReset` (70_reset_and_hazards.md R150). -/
  | warmReset
  /-- `ColdReset` (70_reset_and_hazards.md R151). -/
  | coldReset
  /-- `ContextSync` (20_memory.md R67; 70_reset_and_hazards.md R155). -/
  | contextSync
  /-- A write of `TRFCR_EL1[31:0]` (10_state.md R22, D15). -/
  | writeTrfcrEl1 (v : Word)
  /-- The environment changes the inputs: an exception entry or return, an interrupt, a trap control, the counter
  (10_state.md R45; 60_exceptions.md R127). -/
  | setCtx (c : Ctx)
  /-- The environment changes how instructions are issued (30_encoding.md R75, R77). -/
  | setIssue (p : Issue)
  /-- An instruction outside the scope writes a general-purpose register (10_state.md R46). -/
  | setGpr (t : RegNum) (v : Word)
  /-- The embedding processor's program counter changes (10_state.md R47). -/
  | setPc (v : Word)
  /-- The trace hardware evaluates `TRFCR_TraceVerdict` (60_exceptions.md R133). -/
  | evalVerdict
  /-- The trace hardware evaluates `TRFCR_TimebaseChoice` and the traced timestamp (60_exceptions.md R135, R136). -/
  | evalTimebase
deriving DecidableEq, Repr

/-- What comes next: a 32-bit instruction value the processor issues, or an event (00_scope.md R10, R11; log 1). -/
inductive Input where
  | word (w : Word)
  | event (e : Event)
deriving DecidableEq, Repr

/-- The machine's state. Fields marked MODEL'S OWN are not the spec's. -/
structure State where
  /-- The static parameters; no step changes them (00_scope.md R3; log 2). -/
  cfg : Config
  /-- The inputs the environment owns (10_state.md R45; log 3). -/
  ctx : Ctx
  /-- How instructions are issued (30_encoding.md R75, R77; logs 11, 12). -/
  issue : Issue
  /-- The general-purpose registers (10_state.md R46; log 4). -/
  gpr : Vector Word 16
  /-- The embedding processor's program counter (10_state.md R47; log 5). -/
  pc : Word
  /-- TRFCR, the value direct reads see (10_state.md R44; 70_reset_and_hazards.md R155). -/
  trfcr : Trfcr
  /-- The values TRFCR held before the writes since the last ContextSync, oldest first (70_reset_and_hazards.md R155). -/
  held : List Trfcr
  /-- MODEL'S OWN: what comes next, first item first (log 1). -/
  inputs : List Input
  /-- MODEL'S OWN: how many free values have been drawn (log 6). -/
  draws : Nat
  /-- MODEL'S OWN: the result of the last evaluation of the trace verdict (log 22). -/
  lastVerdict : Option TraceVerdict
  /-- MODEL'S OWN: the result of the last evaluation of the timebase (log 22). -/
  lastTimebase : Option TimebaseSample
deriving DecidableEq, Repr

/-- How a run ends with an outcome the spec names: the five outcomes that are not Access (40_sysreg_access.md R91).
The state of this hardware is unchanged and the spec gives nothing after the label (60_exceptions.md R129; log 8).
Raised by `Machine.endAccess` alone; each is SAFE (the model stops where the processor goes on in a handler). -/
inductive Fault where
  /-- `Undefined` (60_exceptions.md R120). Raised at EL0, under a halted trap to EL3, and for an absent register. Safe. -/
  | undefined
  /-- `TrapEL2_A64(code)` (60_exceptions.md R121). Raised at EL1 by HSTR_EL2.T1 or MDCR_EL2.TTRF. Safe. -/
  | trapEL2A64 (code : BitVec 8)
  /-- `TrapHyp(code)` (60_exceptions.md R122). Raised at EL1 by HSTR.T1 or HDCR.TTRF. Safe. -/
  | trapHyp (code : BitVec 8)
  /-- `TrapEL3_A64(code)` (60_exceptions.md R123). Raised at EL1 and EL2 by MDCR_EL3.TTRF. Safe. -/
  | trapEL3A64 (code : BitVec 8)
  /-- `TrapMonitor` (60_exceptions.md R124). Raised at EL1, EL2 and EL3 by SDCR.TTRF. Safe. -/
  | trapMonitor
deriving DecidableEq, Repr

/-- The cases the spec gives no meaning (95_test_vectors.md section 2.10). Each is SAFE: the model stops. -/
inductive Refusal where
  /-- An instruction without a meaning; raised only by `exec`'s refused arms, of which there are none. Safe. -/
  | notModelled (mnemonic : String)
  /-- A word that is no access to TRFCR (30_encoding.md R79); raised by `step`. Safe. -/
  | notThisHardware (w : Word)
  /-- `Rt` 15, or 13 in T32 (30_encoding.md R80, D9); raised by `step` and by each meaning. Safe. -/
  | registerNotAdmitted (rt : RegNum)
  /-- The instruction's condition fails (30_encoding.md R75, D10); raised by each meaning. Safe. -/
  | conditionFailed
  /-- The register is absent, at EL1 with the T1 control of the EL2 in use set (40_sysreg_access.md R90, D6); raised
  by each meaning. Safe. -/
  | absentUnderT1Trap
deriving DecidableEq, Repr

/-- The parameters of `State.reset`: a DESIGN CHOICE, the spec fixes none (D21; log 2). The register is present, and
every other parameter is FALSE, as in vector A3 of 95_test_vectors.md. -/
def configAtReset : Config :=
  { aarch32AnyEl := true, featTrf := true, featEcv := false, haveEl2 := false, haveEl3 := false,
    sddPriority := false, res0Storage := false }

/-- The inputs of `State.reset`: a DESIGN CHOICE, "unconstrained" in the spec (R152; log 3): vector A3 of
95_test_vectors.md, EL1 with everything else 0, in a PL1 mode. -/
def Ctx.atReset : Ctx :=
  { el := .el1, mIsMonitor := false, halted := false, edscrSdd := 0, el3IsAArch32 := false, el2IsAArch32 := false,
    el2Enabled := false, mdcrEl3Ttrf := 0, sdcrTtrf := 0, hstrEl2T1 := 0, hstrT1 := 0, mdcrEl2Ttrf := 0,
    hdcrTtrf := 0, selfHostedTraceEnabled := false, htrfcrTs := 0, hcrTge := 0, cnthctlEl2Ecv := 0,
    scrEl3EcvEn := 0, hcrEl2E2h := 0, hcrEl2Tge := 0, inPl1Mode := true, physCount := 0, cntvoff := 0,
    cntpoffEl2 := 0 }

/-- How instructions are issued at `State.reset`: A32, outside an IT block, every condition holding; a DESIGN CHOICE
(logs 11, 12). -/
def Issue.atReset : Issue :=
  { iset := .a32, itCond := .al
    condsHolding := [.eq, .ne, .cs, .cc, .mi, .pl, .vs, .vc, .hi, .ls, .ge, .lt, .gt, .le, .al] }

/-- TRFCR after a reset with hardwired reserved bits (10_state.md R43). -/
def Trfcr.atReset : Trfcr :=
  { resHi := 0, ts := .unknown, resLo := 0, e1tre := 0, e0tre := 0 }

/-- The first state of a run: the state after a ColdReset (70_reset_and_hazards.md R151; log 14). TRFCR holds its
reset values (10_state.md R43); everything the spec gives no value for is named in logs 2 to 5, 11, 12. -/
def State.reset : State :=
  { cfg := configAtReset, ctx := Ctx.atReset, issue := Issue.atReset, gpr := Vector.replicate 16 0, pc := 0,
    trfcr := Trfcr.atReset, held := [], inputs := [], draws := 0, lastVerdict := none, lastTimebase := none }

end Sys2Proof.Machine
end

