-- ==== Sys2Proof/Machine/AccessCheck.lean ====
section
/-! DEFINITION. Presence of the register and the access check the two instructions share (40_sysreg_access.md R90, R92). -/

namespace Sys2Proof.Machine

/-- `TRFCR_present` (00_scope.md R4). -/
def trfcrPresent (cfg : Config) : Bool := cfg.aarch32AnyEl && cfg.featTrf

/-- The argument of three of the trap calls (60_exceptions.md R125, D12: log 9). -/
def systemAccessCode : BitVec 8 := 0x03#8

/-- The one case in which an access to an absent register has no outcome: EL1 under the T1 control of the EL2 in use
(40_sysreg_access.md R90, D6: log 13). -/
def t1TrapApplies (c : Ctx) : Bool :=
  c.el == .el1 && c.el2Enabled
    && ((!c.el2IsAArch32 && c.hstrEl2T1 == 1#1) || (c.el2IsAArch32 && c.hstrT1 == 1#1))

/-- `halt_sdd` of 40_sysreg_access.md R92. -/
def haltSdd (c : Ctx) : Bool := c.halted && c.edscrSdd == 1#1

/-- `el3_64` of 40_sysreg_access.md R92. -/
def el3In64 (cfg : Config) (c : Ctx) : Bool := cfg.haveEl3 && !c.el3IsAArch32

/-- `el3_32` of 40_sysreg_access.md R92. -/
def el3In32 (cfg : Config) (c : Ctx) : Bool := cfg.haveEl3 && c.el3IsAArch32

/-- `el2_64` of 40_sysreg_access.md R92. -/
def el2In64 (c : Ctx) : Bool := c.el2Enabled && !c.el2IsAArch32

/-- `el2_32` of 40_sysreg_access.md R92. -/
def el2In32 (c : Ctx) : Bool := c.el2Enabled && c.el2IsAArch32

/-- `not_mon` of 40_sysreg_access.md R92. -/
def notMonitor (c : Ctx) : Bool := !c.mIsMonitor

/-- The EL1 branch, arms E1.1 to E1.9 in order (40_sysreg_access.md R94). -/
def checkEl1 (cfg : Config) (c : Ctx) : AccessOutcome :=
  if haltSdd c && cfg.sddPriority && el3In64 cfg c && c.mdcrEl3Ttrf == 1#1 then .undefined
  else if haltSdd c && cfg.sddPriority && el3In32 cfg c && notMonitor c && c.sdcrTtrf == 1#1 then .undefined
  else if el2In64 c && c.hstrEl2T1 == 1#1 then .trapEL2A64 systemAccessCode
  else if el2In32 c && c.hstrT1 == 1#1 then .trapHyp systemAccessCode
  else if el2In64 c && c.mdcrEl2Ttrf == 1#1 then .trapEL2A64 systemAccessCode
  else if el2In32 c && c.hdcrTtrf == 1#1 then .trapHyp systemAccessCode
  else if el3In64 cfg c && c.mdcrEl3Ttrf == 1#1 then
    if haltSdd c then .undefined else .trapEL3A64 systemAccessCode
  else if el3In32 cfg c && notMonitor c && c.sdcrTtrf == 1#1 then
    if haltSdd c then .undefined else .trapMonitor
  else .access

/-- The EL2 branch, arms E2.1 to E2.5 in order (40_sysreg_access.md R95). Monitor mode is not tested here
(90_conflicts.md C4). -/
def checkEl2 (cfg : Config) (c : Ctx) : AccessOutcome :=
  if haltSdd c && cfg.sddPriority && el3In64 cfg c && c.mdcrEl3Ttrf == 1#1 then .undefined
  else if haltSdd c && cfg.sddPriority && el3In32 cfg c && c.sdcrTtrf == 1#1 then .undefined
  else if el3In64 cfg c && c.mdcrEl3Ttrf == 1#1 then
    if haltSdd c then .undefined else .trapEL3A64 systemAccessCode
  else if el3In32 cfg c && c.sdcrTtrf == 1#1 then
    if haltSdd c then .undefined else .trapMonitor
  else .access

/-- The EL3 branch, arms E3.1 and E3.2 (40_sysreg_access.md R96). -/
def checkEl3 (c : Ctx) : AccessOutcome :=
  if notMonitor c && c.sdcrTtrf == 1#1 then .trapMonitor else .access

/-- `TRFCR_AccessCheck(ctx)` (40_sysreg_access.md R92), evaluated literally on any context (R98: log 20). -/
def accessCheck (cfg : Config) (c : Ctx) : AccessOutcome :=
  match c.el with
  | .el0 => .undefined
  | .el1 => checkEl1 cfg c
  | .el2 => checkEl2 cfg c
  | .el3 => checkEl3 c

end Sys2Proof.Machine
end

