-- ==== Sys2Proof/Machine/Flags.lean ====
section
/-! DEFINITION. The hardware has no flags (10_state.md R48): here is only whether an instruction's condition holds. -/

namespace Sys2Proof.Machine

/-- A condition passes: `al` always (30_encoding.md R76), another when the environment says it holds (R75, D10: log 11). -/
def condPasses (p : Issue) (c : Cond) : Bool :=
  c == .al || decide (c ∈ p.condsHolding)

/-- The condition an instruction executes under: its own in A32, the IT block's in T32 (30_encoding.md R76, R77). -/
def conditionOf (p : Issue) : Instr → Cond
  | .mrcTrfcrA32 c _ => c
  | .mcrTrfcrA32 c _ => c
  | .mrcTrfcrT32 _ => p.itCond
  | .mcrTrfcrT32 _ => p.itCond

end Sys2Proof.Machine
end

