-- ==== Sys2Proof/Machine/Ops.lean ====
section
/-! DEFINITION. The named operations: general registers, reading and writing TRFCR, the resets, how an access ends. -/

namespace Sys2Proof.Machine

/-- `x[t]` (00_scope.md R7). -/
def readGpr (s : State) (t : RegNum) : Word := s.gpr.get t.toFin

/-- `x[t] <- v` (00_scope.md R7). -/
def writeGpr (s : State) (t : RegNum) (v : Word) : State := { s with gpr := s.gpr.set t.toNat v t.isLt }

/-- The program counter moves on to the next instruction: both forms are 4 bytes long (10_state.md R47, D17: log 5). -/
def advancePc (s : State) : State := { s with pc := s.pc + 4 }

/-- One free value is drawn: the counter moves on, so that the next draw is another value (10_state.md R32: log 6). -/
def countDraw (s : State) : State := { s with draws := s.draws + 1 }

/-- The 32 bits `res_hi : TS : res_lo : E1TRE : E0TRE` with `ts` for TS; the reserved bits are 0 unless they are
storage (10_state.md R24, R33, R44). -/
def packTrfcr (cfg : Config) (r : Trfcr) (ts : BitVec 2) : Word :=
  (if cfg.res0Storage then r.resHi else 0#25) ++ ts ++ (if cfg.res0Storage then r.resLo else 0#3) ++ r.e1tre ++ r.e0tre

/-- `ReadTRFCR()` (40_sysreg_access.md R100): the 32-bit value and the state after, which differs only in the count of
draws, and only when TS is `unknown` and its two bits are a fresh free value (10_state.md R32). -/
def readTrfcr (s : State) : Word × State :=
  match s.trfcr.ts with
  | .known v => (packTrfcr s.cfg s.trfcr v, s)
  | .unknown => (packTrfcr s.cfg s.trfcr (Config.freeTs s.draws), countDraw s)

/-- The register after the value `v` is stored in `r` (40_sysreg_access.md R101): the bits [6:5], [1] and [0] always,
reserved TS values included (10_state.md R28), the reserved bits only when they are storage. -/
def unpackTrfcr (cfg : Config) (r : Trfcr) (v : Word) : Trfcr :=
  { resHi := if cfg.res0Storage then v.extractLsb' 7 25 else r.resHi
    ts := .known (v.extractLsb' 5 2)
    resLo := if cfg.res0Storage then v.extractLsb' 2 3 else r.resLo
    e1tre := v.extractLsb' 1 1
    e0tre := v.extractLsb' 0 1 }

/-- `WriteTRFCR(v)` (40_sysreg_access.md R101); the value held before stays usable by the trace functions until the
next ContextSync (70_reset_and_hazards.md R155: log 16). -/
def writeTrfcr (s : State) (v : Word) : State :=
  { s with trfcr := unpackTrfcr s.cfg s.trfcr v, held := s.held ++ [s.trfcr] }

/-- TRFCR after a reset, the `n`-th draw giving the reserved bits when they are storage (70_reset_and_hazards.md R150). -/
def resetTrfcr (cfg : Config) (r : Trfcr) (n : Nat) : Trfcr :=
  { resHi := if cfg.res0Storage then Config.freeResHi n else r.resHi
    ts := .unknown
    resLo := if cfg.res0Storage then Config.freeResLo n else r.resLo
    e1tre := 0#1
    e0tre := 0#1 }

/-- `WarmReset()` (70_reset_and_hazards.md R150): nothing when the register is absent; the reset values act on the
trace functions at once, so no earlier value stays usable. Where execution stands after a reset during a run is not
in the source (R152): the program counter and everything else outside TRFCR stay as they were, a DESIGN CHOICE (log 27). -/
def warmReset (s : State) : State :=
  if trfcrPresent s.cfg then
    countDraw { s with trfcr := resetTrfcr s.cfg s.trfcr s.draws, held := [] }
  else s

/-- `ColdReset()`: the same effect as a Warm reset (70_reset_and_hazards.md R151, D4: log 14), the program
counter left as it was (log 27). -/
def coldReset (s : State) : State := warmReset s

/-- `ContextSync`: from here on only the current value is used (70_reset_and_hazards.md R155). -/
def contextSync (s : State) : State := { s with held := [] }

/-- A write of `TRFCR_EL1[31:0]`, the same storage (10_state.md R22, D15: log 17). Without the register there is
nothing to write (R21). -/
def writeTrfcrEl1 (s : State) (v : Word) : State :=
  if trfcrPresent s.cfg then writeTrfcr s v else s

/-- TAKING A TRAP, the one operation all five outcomes share (60_exceptions.md R129): the run ends with the label and
its argument, this hardware's state as it was; the spec gives no saved state, no vector and no mode change, and no
return (R130). On `access` the instruction's own effect happens and execution continues with the next instruction
(40_sysreg_access.md R103). -/
def endAccess (o : AccessOutcome) (s : State) (effect : State → State) : Host.Outcome State Fault Refusal :=
  match o with
  | .access => .next (advancePc (effect s))
  | .undefined => .fault .undefined
  | .trapEL2A64 code => .fault (.trapEL2A64 code)
  | .trapHyp code => .fault (.trapHyp code)
  | .trapEL3A64 code => .fault (.trapEL3A64 code)
  | .trapMonitor => .fault .trapMonitor

/-- One access by the instruction `i` whose effect on Access is `effect`: the register number (30_encoding.md R80), the
condition (R75), presence (40_sysreg_access.md R90), then the check (R92). The order of the two refusals is log 23. -/
def accessTrfcr (i : Instr) (s : State) (effect : State → State) : Host.Outcome State Fault Refusal :=
  if !rtAdmitted i.iset i.rt then .refused (.registerNotAdmitted i.rt)
  else if !condPasses s.issue (conditionOf s.issue i) then .refused .conditionFailed
  else if trfcrPresent s.cfg then endAccess (accessCheck s.cfg s.ctx) s effect
  else if t1TrapApplies s.ctx then .refused .absentUnderT1Trap
  else endAccess .undefined s effect

/-- The effect of the read on Access: `x[t] <- ReadTRFCR()` (40_sysreg_access.md R100). -/
def readEffect (rt : RegNum) (s : State) : State :=
  writeGpr (readTrfcr s).2 rt (readTrfcr s).1

/-- The effect of the write on Access: `WriteTRFCR(x[t])` (40_sysreg_access.md R101). -/
def writeEffect (rt : RegNum) (s : State) : State :=
  writeTrfcr s (readGpr s rt)

end Sys2Proof.Machine
end

