-- ==== Sys2Proof/Machine/SystemAccess.lean ====
section
/-! DEFINITION. The meanings of the System register access instructions (40_sysreg_access.md R100, R101). -/

namespace Sys2Proof.Machine

/-- `MRC_TRFCR`, A32 (40_sysreg_access.md R100). -/
def execMrcTrfcrA32 (c : Cond) (rt : RegNum) (s : State) : Host.Outcome State Fault Refusal :=
  accessTrfcr (.mrcTrfcrA32 c rt) s (readEffect rt)

/-- `MCR_TRFCR`, A32 (40_sysreg_access.md R101). -/
def execMcrTrfcrA32 (c : Cond) (rt : RegNum) (s : State) : Host.Outcome State Fault Refusal :=
  accessTrfcr (.mcrTrfcrA32 c rt) s (writeEffect rt)

/-- `MRC_TRFCR`, T32 (40_sysreg_access.md R100; 30_encoding.md R77). -/
def execMrcTrfcrT32 (rt : RegNum) (s : State) : Host.Outcome State Fault Refusal :=
  accessTrfcr (.mrcTrfcrT32 rt) s (readEffect rt)

/-- `MCR_TRFCR`, T32 (40_sysreg_access.md R101; 30_encoding.md R77). -/
def execMcrTrfcrT32 (rt : RegNum) (s : State) : Host.Outcome State Fault Refusal :=
  accessTrfcr (.mcrTrfcrT32 rt) s (writeEffect rt)

end Sys2Proof.Machine
end

