-- ==== Sys2Proof/Machine/Dispatch.lean ====
section
/-! DEFINITION. Which meaning each instruction has. -/

namespace Sys2Proof.Machine

def exec (i : Instr) (s : State) : Host.Outcome State Fault Refusal :=
  match i with
  | .mrcTrfcrA32 c rt => Sys2Proof.Machine.execMrcTrfcrA32 c rt s
  | .mcrTrfcrA32 c rt => Sys2Proof.Machine.execMcrTrfcrA32 c rt s
  | .mrcTrfcrT32 rt => Sys2Proof.Machine.execMrcTrfcrT32 rt s
  | .mcrTrfcrT32 rt => Sys2Proof.Machine.execMcrTrfcrT32 rt s

end Sys2Proof.Machine
end

