-- ==== Sys2Proof/Machine/Trace.lean ====
section
/-! DEFINITION. What the register's fields do to trace: the verdict, the timebase and the traced timestamp, and the
trace hardware's evaluations of them (60_exceptions.md R133 to R136; 70_reset_and_hazards.md R155). -/

namespace Sys2Proof.Machine

/-- `TS_ignored` (10_state.md R29). -/
def tsIgnored (c : Ctx) : Bool := !c.selfHostedTraceEnabled || c.htrfcrTs != 0b00#2

/-- `E1TRE_ignored` (10_state.md R35). -/
def e1treIgnored (c : Ctx) : Bool := !c.selfHostedTraceEnabled

/-- `E0TRE_ignored` (10_state.md R39). -/
def e0treIgnored (c : Ctx) : Bool := !c.selfHostedTraceEnabled || (c.el2Enabled && c.hcrTge == 1#1)

/-- An enable bit that is not ignored: 0 prohibits, 1 allows (10_state.md R34, R38). `allowed` is a permission, not a
promise (60_exceptions.md R134). -/
def enableVerdict (b : BitVec 1) : TraceVerdict := if b == 0#1 then .prohibited else .allowed

/-- `TRFCR_TraceVerdict(ctx)` on the register value `r` (60_exceptions.md R133). EL0 is tested before the PL1 modes, and
`InPL1Mode` is an input, not `EL == EL1` (90_conflicts.md C1; log 20). -/
def traceVerdict (cfg : Config) (c : Ctx) (r : Trfcr) : TraceVerdict :=
  if !trfcrPresent cfg then .noSay
  else if c.el == .el0 then
    if e0treIgnored c then .noSay else enableVerdict r.e0tre
  else if c.inPl1Mode then
    if e1treIgnored c then .noSay else enableVerdict r.e1tre
  else .noSay

/-- `TRFCR_TimebaseChoice(ctx)` on the register value `r` (60_exceptions.md R135; 10_state.md R26, R27). -/
def timebaseChoice (cfg : Config) (c : Ctx) (r : Trfcr) : TimebaseChoice :=
  if !trfcrPresent cfg then .noSay
  else if tsIgnored c then .noSay
  else match r.ts with
    | .unknown => .unconstrained
    | .known v =>
      if v == 0b01#2 then .virtualTime
      else if v == 0b10#2 then (if cfg.featEcv then .guestPhysical else .unconstrained)
      else if v == 0b11#2 then .physical
      else .unconstrained

/-- `PhysOffsetZero` (10_state.md R30, D18: log 18). -/
def physOffsetZero (c : Ctx) : Bool :=
  (c.el2Enabled && c.el2IsAArch32) || c.cnthctlEl2Ecv == 0#1 || c.scrEl3EcvEn == 0#1
    || (c.hcrEl2E2h == 1#1 && c.hcrEl2Tge == 1#1)

/-- The traced timestamp for a choice (60_exceptions.md R136), subtraction modulo 2^64 (D16: log 19). `free` is the free
value of an Unconstrained choice (log 15); `noSay` determines none (D24). -/
def tracedTimestamp (c : Ctx) (free : Count) : TimebaseChoice → Option Count
  | .virtualTime => some (c.physCount - c.cntvoff)
  | .guestPhysical => some (c.physCount - (if physOffsetZero c then 0#64 else c.cntpoffEl2))
  | .physical => some c.physCount
  | .unconstrained => some free
  | .noSay => none

/-- The register values a trace function may use: those held since the last ContextSync and the current one
(70_reset_and_hazards.md R155). -/
def usableValues (s : State) : List Trfcr := s.held ++ [s.trfcr]

/-- The value one evaluation uses: a free choice among the usable ones (70_reset_and_hazards.md R155; log 16). -/
def chosenValue (s : State) : Trfcr :=
  (usableValues s).getD (Config.freeChoice s.draws % (usableValues s).length) s.trfcr

/-- The trace hardware evaluates the verdict, each evaluation with a choice of its own (R155). -/
def evalVerdict (s : State) : State :=
  countDraw { s with lastVerdict := some (traceVerdict s.cfg s.ctx (chosenValue s)) }

/-- What an evaluation of the timebase on the register value `r` gives (60_exceptions.md R135, R136). -/
def timebaseSample (cfg : Config) (c : Ctx) (free : Count) (r : Trfcr) : TimebaseSample :=
  { choice := timebaseChoice cfg c r, stamp := tracedTimestamp c free (timebaseChoice cfg c r) }

/-- The trace hardware evaluates the timebase and the timestamp, each evaluation with a choice of its own (R155). -/
def evalTimebase (s : State) : State :=
  countDraw { s with lastTimebase := some (timebaseSample s.cfg s.ctx (Config.freeStamp s.draws) (chosenValue s)) }

end Sys2Proof.Machine
end

