-- ==== Sys2Proof/Machine/Events.lean ====
section
/-! DEFINITION. What each event of the other agents does (00_scope.md R10). -/

namespace Sys2Proof.Machine

/-- One event, a step of its own between two accesses (00_scope.md R10; 70_reset_and_hazards.md R150). -/
def applyEvent (e : Event) (s : State) : State :=
  match e with
  | .warmReset => warmReset s
  | .coldReset => coldReset s
  | .contextSync => contextSync s
  | .writeTrfcrEl1 v => writeTrfcrEl1 s v
  | .setCtx c => { s with ctx := c }
  | .setIssue p => { s with issue := p }
  | .setGpr t v => writeGpr s t v
  | .setPc v => { s with pc := v }
  | .evalVerdict => evalVerdict s
  | .evalTimebase => evalTimebase s

end Sys2Proof.Machine
end

