-- ==== Sys2Proof/Machine/Fetch.lean ====
section
/-! DEFINITION. Taking the next item of the queue, and placing an instruction at its head (log 1). -/

namespace Sys2Proof.Machine

/-- What the next step does. -/
inductive Fetched where
  | idle
  | event (e : Event) (s : State)
  | instr (i : Instr) (s : State)
  | refused (r : Refusal)
deriving DecidableEq, Repr

/-- The refusal of a word the decoder refuses (30_encoding.md R79, R80). -/
def refusalOf : DecodeRefusal → Refusal
  | .notThisHardware w => .notThisHardware w
  | .registerNotAdmitted rt => .registerNotAdmitted rt

/-- The next item, taken from the queue; a word is read in the instruction set in force (30_encoding.md R77). -/
def fetch (s : State) : Fetched :=
  match s.inputs with
  | [] => .idle
  | .event e :: rest => .event e { s with inputs := rest }
  | .word w :: rest =>
    match decode s.issue.iset w with
    | .instr i => .instr i { s with inputs := rest }
    | .refused r => .refused (refusalOf r)

/-- `w` placed where the next step takes its item. -/
def placeWord (s : State) (w : Word) : State := { s with inputs := .word w :: s.inputs }

end Sys2Proof.Machine
end

