-- ==== Sys2Proof/Machine/Step.lean ====
section
/-! DEFINITION. One step: the next item of the queue, an event or an instruction; with none, the machine idles. -/

namespace Sys2Proof.Machine

/-- One step of the machine (00_scope.md R10, R11; log 1). -/
def step (s : State) : Host.Outcome State Fault Refusal :=
  match fetch s with
  | .idle => .next s
  | .event e t => .next (applyEvent e t)
  | .instr i t => exec i t
  | .refused r => .refused r

/-- `s` with the instruction `w` of `nbits` bits as the next item `step` takes; nothing else changes (log 1). -/
def State.withFetchWord (s : State) (nbits w : Nat) : State := placeWord s (tableWord nbits w)

end Sys2Proof.Machine
end

