-- ==== Sys2Proof/Safety.lean ====
section
/-! DEFINITION. The terms claims use: an instruction that executes, an access that reaches the register, a run without a
write, and the invariant of the state. -/

namespace Sys2Proof.Machine

/-- The instruction executes: its register number is admitted (30_encoding.md R80) and its condition holds (R75). -/
abbrev Executes (i : Instr) (s : State) : Prop :=
  rtAdmitted i.iset i.rt = true ∧ condPasses s.issue (conditionOf s.issue i) = true

/-- The access reaches the register: the instruction executes, the register is present (40_sysreg_access.md R90) and
the check ends in Access (R92). -/
abbrev Reaches (i : Instr) (s : State) : Prop :=
  Executes i s ∧ trfcrPresent s.cfg = true ∧ accessCheck s.cfg s.ctx = .access

/-- The outcome of the first row of a table of arms whose condition holds, and Access when none does
(40_sysreg_access.md R94, R95: "Each row's condition is tested only when every row before it failed"). -/
def firstArm : List (Bool × AccessOutcome) → AccessOutcome
  | [] => .access
  | arm :: rest => if arm.1 then arm.2 else firstArm rest

/-- The next step is a write of TRFCR: through TRFCR_EL1 (10_state.md R22), or by a write instruction that reaches it. -/
abbrev WritesNext (s : State) : Prop :=
  (∃ v rest, s.inputs = .event (.writeTrfcrEl1 v) :: rest) ∨
    ∃ w rest i, s.inputs = .word w :: rest ∧ decode s.issue.iset w = .instr i ∧ i.isRead = false ∧ Reaches i s

/-- Some number of steps lead from the one state to the other, none of them a write of TRFCR
(70_reset_and_hazards.md R155). -/
inductive RunsWithoutWrite : State → State → Prop where
  | here (s : State) : RunsWithoutWrite s s
  | more {s t u : State} : RunsWithoutWrite s t → ¬ WritesNext t → step t = .next u → RunsWithoutWrite s u

/-- Hardwired reserved bits hold 0 in a register value (10_state.md R24, R33). -/
abbrev ReservedClear (cfg : Config) (r : Trfcr) : Prop :=
  cfg.res0Storage = false → r.resHi = 0#25 ∧ r.resLo = 0#3

/-- The invariant: hardwired reserved bits hold 0 in every register value a read or a trace function may use, and an
absent register has no earlier values (10_state.md R21, R24, R33; 70_reset_and_hazards.md R155). -/
abbrev State.Inv (s : State) : Prop :=
  (∀ r ∈ usableValues s, ReservedClear s.cfg r) ∧ (trfcrPresent s.cfg = false → s.held = [])

end Sys2Proof.Machine
end

