-- ==== Sys2Proof/Certificates/Slice0/Obligations.lean ====
section
/-! DEFINITION. The statements for the provers. Each docstring names the rule of spec/ it rests on. -/

open Sys2Proof Sys2Proof.Machine

/-! ## Encoding -/

/-- 30_encoding.md R72, R76, R77: every well-formed instruction, with every operand, is read back from its own word in
its own instruction set. The bit positions are general knowledge the spec adopts (D8, log 12). -/
def Obligations.DecodeOfEncodeIsTheInstruction : Prop :=
  ∀ i : Instr, i.wellFormed = true → decode i.iset (encode i) = .instr i

/-- 30_encoding.md R72, R76, R77, R80: a word that decodes is the word of the instruction it decodes to, which is
well-formed and of the instruction set the word was read in (D8, log 12). -/
def Obligations.DecodedWordIsTheEncodedWord : Prop :=
  ∀ (iset : InstrSet) (w : Word) (i : Instr), decode iset w = .instr i →
    encode i = w ∧ i.wellFormed = true ∧ i.iset = iset

/-- 30_encoding.md R78 with R76, R80: the decoder, which reads fields, accepts exactly the words the match and mask
values of the four opcode rows accept, less A32 condition `0b1111` and the register numbers not admitted, with the
direction of the row (D8, D9; logs 10, 12). -/
def Obligations.DecoderAgreesWithMatchAndMask : Prop :=
  ∀ w : Word,
    ((∃ i, i.isRead = true ∧ decode .a32 w = .instr i) ↔
      (w &&& 0x0FFF0FFF#32 = 0x0E110F32#32 ∧ condField w ≠ 0b1111#4 ∧ rtField w ≠ 15#4)) ∧
    ((∃ i, i.isRead = false ∧ decode .a32 w = .instr i) ↔
      (w &&& 0x0FFF0FFF#32 = 0x0E010F32#32 ∧ condField w ≠ 0b1111#4 ∧ rtField w ≠ 15#4)) ∧
    ((∃ i, i.isRead = true ∧ decode .t32 w = .instr i) ↔
      (w &&& 0xFFFF0FFF#32 = 0xEE110F32#32 ∧ rtField w ≠ 15#4 ∧ rtField w ≠ 13#4)) ∧
    ((∃ i, i.isRead = false ∧ decode .t32 w = .instr i) ↔
      (w &&& 0xFFFF0FFF#32 = 0xEE010F32#32 ∧ rtField w ≠ 15#4 ∧ rtField w ≠ 13#4))

/-- 30_encoding.md R79 with R72, R76, R77 (the places of the fields are PRESUMED: D8, log 12): a word at the head of
the queue is refused by name, and is neither a TRFCR access nor Undefined, when one of its five selecting fields is not
TRFCR's, when bits [27:24] are not `1110` or bit 4 is not 1, when bits [31:28] are `1111` in A32, and when they are not
`1110` in T32. -/
def Obligations.NeighbouringEncodingIsRefusedByName : Prop :=
  ∀ (s : State) (w : Word) (rest : List Input), s.inputs = .word w :: rest →
    (w.extractLsb' 8 4 ≠ 0b1111#4 ∨ w.extractLsb' 21 3 ≠ 0b000#3 ∨ w.extractLsb' 16 4 ≠ 0b0001#4 ∨
      w.extractLsb' 0 4 ≠ 0b0010#4 ∨ w.extractLsb' 5 3 ≠ 0b001#3 ∨
      w.extractLsb' 24 4 ≠ 0b1110#4 ∨ w.extractLsb' 4 1 ≠ 1#1 ∨
      (s.issue.iset = .a32 ∧ w.extractLsb' 28 4 = 0b1111#4) ∨
      (s.issue.iset = .t32 ∧ w.extractLsb' 28 4 ≠ 0b1110#4)) →
    step s = .refused (.notThisHardware w)

/-- 30_encoding.md R80 (D9, log 10): register 15 in A32, registers 13 and 15 in T32, are refused by name, in the read
and in the write, in every state. That the register number is looked at before the condition, so that this refusal wins
over `conditionFailed`, is the model's choice (log 23). -/
def Obligations.RegisterNotAdmittedIsRefusedByName : Prop :=
  ∀ (s : State) (c : Cond),
    exec (.mrcTrfcrA32 c 15#4) s = .refused (.registerNotAdmitted 15#4) ∧
    exec (.mcrTrfcrA32 c 15#4) s = .refused (.registerNotAdmitted 15#4) ∧
    exec (.mrcTrfcrT32 15#4) s = .refused (.registerNotAdmitted 15#4) ∧
    exec (.mcrTrfcrT32 15#4) s = .refused (.registerNotAdmitted 15#4) ∧
    exec (.mrcTrfcrT32 13#4) s = .refused (.registerNotAdmitted 13#4) ∧
    exec (.mcrTrfcrT32 13#4) s = .refused (.registerNotAdmitted 13#4)

/-- 95_test_vectors.md section 2.8: words of the spec's tables decode to the instructions they stand for
(the layouts are PRESUMED: D8, log 12). -/
def Obligations.WordsOfTheSpecDecode : Prop :=
  decode .a32 0xEE112F32#32 = .instr (.mrcTrfcrA32 .al 2#4) ∧
  decode .a32 0x1E013F32#32 = .instr (.mcrTrfcrA32 .ne 3#4) ∧
  decode .t32 0xEE01EF32#32 = .instr (.mcrTrfcrT32 14#4) ∧
  decode .t32 0xEE11CF32#32 = .instr (.mrcTrfcrT32 12#4) ∧
  decode .a32 0xFE110F32#32 = .refused (.notThisHardware 0xFE110F32#32)

/-! ## The step -/

/-- 00_scope.md R11 (the queue is the model's own, log 1): when the word at the head of the queue decodes to `i` in the
instruction set in force, the step is `exec i` on the state without that word; a word placed by `withFetchWord` is the
next one. -/
def Obligations.StepRunsTheDecodedInstruction : Prop :=
  ∀ (s : State) (i : Instr),
    (∀ w rest, s.inputs = .word w :: rest → decode s.issue.iset w = .instr i →
      step s = exec i { s with inputs := rest }) ∧
    (∀ w : Nat, decode s.issue.iset (BitVec.ofNat 32 (w % 2 ^ 32)) = .instr i →
      step (s.withFetchWord 32 w) = exec i s)

/-- 00_scope.md R10; 70_reset_and_hazards.md R150 (log 1): an event at the head of the queue happens as a step of its
own, between two accesses; with an empty queue the machine idles. -/
def Obligations.StepAppliesTheNextEvent : Prop :=
  ∀ s : State,
    (∀ e rest, s.inputs = .event e :: rest → step s = .next (applyEvent e { s with inputs := rest })) ∧
    (s.inputs = [] → step s = .next s)

/-- 10_state.md R45, R46, R47; 30_encoding.md R75, R77 (that the environment acts through these four events is the
model's choice: logs 1, 3, 4, 5, 11): after each of them the machine holds the value the event carries, and nothing else
has changed but the queue. -/
def Obligations.EnvironmentEventsSetExactlyWhatTheyCarry : Prop :=
  ∀ (s : State) (rest : List Input),
    (∀ c, s.inputs = .event (.setCtx c) :: rest → step s = .next { s with inputs := rest, ctx := c }) ∧
    (∀ p, s.inputs = .event (.setIssue p) :: rest → step s = .next { s with inputs := rest, issue := p }) ∧
    (∀ v, s.inputs = .event (.setPc v) :: rest → step s = .next { s with inputs := rest, pc := v }) ∧
    (∀ n v, s.inputs = .event (.setGpr n v) :: rest →
      ∃ t, step s = .next t ∧ readGpr t n = v ∧ (∀ r : RegNum, r ≠ n → readGpr t r = readGpr s r) ∧
        t = { s with inputs := rest, gpr := t.gpr })

/-! ## Whether an instruction executes, and presence -/

/-- 30_encoding.md R75 (D10, log 11): an instruction whose condition fails has no meaning and is refused by name,
whatever the access check would say; AL never fails (R76). That the condition is looked at before presence is the model's
choice (log 23). -/
def Obligations.FailingConditionIsRefusedByName : Prop :=
  (∀ (i : Instr) (s : State), rtAdmitted i.iset i.rt = true → conditionOf s.issue i ≠ .al →
    conditionOf s.issue i ∉ s.issue.condsHolding → exec i s = .refused .conditionFailed) ∧
  (∀ (i : Instr) (s : State), conditionOf s.issue i = .al → exec i s ≠ .refused .conditionFailed)

/-- 40_sysreg_access.md R90: an access to an absent register is Undefined, whatever the check would say, but for the
one case D6 names. -/
def Obligations.AbsentRegisterAccessIsUndefined : Prop :=
  ∀ (i : Instr) (s : State), Executes i s → (s.cfg.aarch32AnyEl = false ∨ s.cfg.featTrf = false) →
    ¬ (s.ctx.el = .el1 ∧ s.ctx.el2Enabled = true ∧
      ((s.ctx.el2IsAArch32 = false ∧ s.ctx.hstrEl2T1 = 1#1) ∨ (s.ctx.el2IsAArch32 = true ∧ s.ctx.hstrT1 = 1#1))) →
    exec i s = .fault .undefined

/-- 40_sysreg_access.md R90 (D6, log 13): the one case in which an access to an absent register has no outcome. -/
def Obligations.AbsentRegisterUnderT1ControlIsRefused : Prop :=
  ∀ (i : Instr) (s : State), Executes i s → (s.cfg.aarch32AnyEl = false ∨ s.cfg.featTrf = false) →
    (s.ctx.el = .el1 ∧ s.ctx.el2Enabled = true ∧
      ((s.ctx.el2IsAArch32 = false ∧ s.ctx.hstrEl2T1 = 1#1) ∨ (s.ctx.el2IsAArch32 = true ∧ s.ctx.hstrT1 = 1#1))) →
    exec i s = .refused .absentUnderT1Trap

/-! ## The access check -/

/-- 40_sysreg_access.md R93: at EL0 both forms are Undefined, whatever every other input and parameter holds. -/
def Obligations.El0AccessIsUndefined : Prop :=
  ∀ (i : Instr) (s : State), Executes i s → s.ctx.el = .el0 → exec i s = .fault .undefined

/-- 40_sysreg_access.md R94: at EL1 the outcome is that of the first row whose source condition holds, and a trap to EL2
has priority over a trap to EL3 (a row E1.3 to E1.6 that holds shuts out E1.7b and E1.8b). -/
def Obligations.El1OutcomeIsThatOfTheFirstArm : Prop :=
  ∀ (g : Config) (c : Ctx), c.el = .el1 →
    accessCheck g c =
      firstArm
        [ (c.halted && g.haveEl3 && c.edscrSdd == 1#1 && g.sddPriority && !c.el3IsAArch32 && c.mdcrEl3Ttrf == 1#1,
            .undefined),
          (c.halted && g.haveEl3 && c.edscrSdd == 1#1 && g.sddPriority && c.el3IsAArch32 && !c.mIsMonitor
            && c.sdcrTtrf == 1#1, .undefined),
          (c.el2Enabled && !c.el2IsAArch32 && c.hstrEl2T1 == 1#1, .trapEL2A64 0x03#8),
          (c.el2Enabled && c.el2IsAArch32 && c.hstrT1 == 1#1, .trapHyp 0x03#8),
          (c.el2Enabled && !c.el2IsAArch32 && c.mdcrEl2Ttrf == 1#1, .trapEL2A64 0x03#8),
          (c.el2Enabled && c.el2IsAArch32 && c.hdcrTtrf == 1#1, .trapHyp 0x03#8),
          (g.haveEl3 && !c.el3IsAArch32 && c.mdcrEl3Ttrf == 1#1,
            if c.halted && c.edscrSdd == 1#1 then .undefined else .trapEL3A64 0x03#8),
          (g.haveEl3 && c.el3IsAArch32 && !c.mIsMonitor && c.sdcrTtrf == 1#1,
            if c.halted && c.edscrSdd == 1#1 then .undefined else .trapMonitor) ] ∧
    (((c.el2Enabled = true ∧ c.el2IsAArch32 = false ∧ (c.hstrEl2T1 = 1#1 ∨ c.mdcrEl2Ttrf = 1#1)) ∨
      (c.el2Enabled = true ∧ c.el2IsAArch32 = true ∧ (c.hstrT1 = 1#1 ∨ c.hdcrTtrf = 1#1))) →
      accessCheck g c ≠ .trapEL3A64 0x03#8 ∧ accessCheck g c ≠ .trapMonitor ∧ accessCheck g c ≠ .access ∧
        (g.sddPriority = false → accessCheck g c ≠ .undefined))

/-- 40_sysreg_access.md R95: at EL2 the outcome is that of the first row whose source condition holds, Monitor mode and
the EL2 controls are not consulted, and it does not depend on SDD_PRIORITY. -/
def Obligations.El2OutcomeIsThatOfTheFirstArm : Prop :=
  ∀ (g : Config) (c : Ctx), c.el = .el2 →
    accessCheck g c =
      firstArm
        [ (c.halted && g.haveEl3 && c.edscrSdd == 1#1 && g.sddPriority && !c.el3IsAArch32 && c.mdcrEl3Ttrf == 1#1,
            .undefined),
          (c.halted && g.haveEl3 && c.edscrSdd == 1#1 && g.sddPriority && c.el3IsAArch32 && c.sdcrTtrf == 1#1,
            .undefined),
          (g.haveEl3 && !c.el3IsAArch32 && c.mdcrEl3Ttrf == 1#1,
            if c.halted && c.edscrSdd == 1#1 then .undefined else .trapEL3A64 0x03#8),
          (g.haveEl3 && c.el3IsAArch32 && c.sdcrTtrf == 1#1,
            if c.halted && c.edscrSdd == 1#1 then .undefined else .trapMonitor) ] ∧
    ∀ p : Bool, accessCheck { g with sddPriority := p } c = accessCheck g c

/-- 40_sysreg_access.md R96: at EL3 an access is trapped to Monitor mode outside Monitor mode when SDCR.TTRF is set, and
otherwise reaches the register, whatever every other input and parameter holds. -/
def Obligations.El3OutcomeIsThatOfTheFirstArm : Prop :=
  ∀ (g : Config) (c : Ctx), c.el = .el3 →
    (c.mIsMonitor = false ∧ c.sdcrTtrf = 1#1 → accessCheck g c = .trapMonitor) ∧
    (¬ (c.mIsMonitor = false ∧ c.sdcrTtrf = 1#1) → accessCheck g c = .access) ∧
    ∀ (g' : Config) (c' : Ctx), c'.el = .el3 → c'.mIsMonitor = c.mIsMonitor → c'.sdcrTtrf = c.sdcrTtrf →
      accessCheck g' c' = accessCheck g c

/-- 40_sysreg_access.md R97: the check reads at each level only the inputs listed for it. -/
def Obligations.CheckReadsOnlyTheListedInputs : Prop :=
  ∀ (g g' : Config) (c c' : Ctx), c'.el = c.el →
    (c.el = .el1 →
      c'.halted = c.halted ∧ c'.edscrSdd = c.edscrSdd ∧ c'.el3IsAArch32 = c.el3IsAArch32 ∧
      c'.el2IsAArch32 = c.el2IsAArch32 ∧ c'.el2Enabled = c.el2Enabled ∧ c'.mIsMonitor = c.mIsMonitor ∧
      c'.mdcrEl3Ttrf = c.mdcrEl3Ttrf ∧ c'.sdcrTtrf = c.sdcrTtrf ∧ c'.hstrEl2T1 = c.hstrEl2T1 ∧
      c'.hstrT1 = c.hstrT1 ∧ c'.mdcrEl2Ttrf = c.mdcrEl2Ttrf ∧ c'.hdcrTtrf = c.hdcrTtrf ∧
      g'.haveEl3 = g.haveEl3 ∧ g'.sddPriority = g.sddPriority) →
    (c.el = .el2 →
      c'.halted = c.halted ∧ c'.edscrSdd = c.edscrSdd ∧ c'.el3IsAArch32 = c.el3IsAArch32 ∧
      c'.mdcrEl3Ttrf = c.mdcrEl3Ttrf ∧ c'.sdcrTtrf = c.sdcrTtrf ∧ g'.haveEl3 = g.haveEl3) →
    (c.el = .el3 → c'.mIsMonitor = c.mIsMonitor ∧ c'.sdcrTtrf = c.sdcrTtrf) →
    accessCheck g' c' = accessCheck g c

/-- 60_exceptions.md R121 to R124, R131: where each trap can come from, for every context. -/
def Obligations.EachTrapComesOnlyFromItsControls : Prop :=
  ∀ (g : Config) (c : Ctx) (code : BitVec 8),
    (accessCheck g c = .trapEL2A64 code →
      code = 0x03#8 ∧ c.el = .el1 ∧ c.el2Enabled = true ∧ c.el2IsAArch32 = false ∧
        (c.hstrEl2T1 = 1#1 ∨ c.mdcrEl2Ttrf = 1#1)) ∧
    (accessCheck g c = .trapHyp code →
      code = 0x03#8 ∧ c.el = .el1 ∧ c.el2Enabled = true ∧ c.el2IsAArch32 = true ∧
        (c.hstrT1 = 1#1 ∨ c.hdcrTtrf = 1#1)) ∧
    (accessCheck g c = .trapEL3A64 code →
      code = 0x03#8 ∧ (c.el = .el1 ∨ c.el = .el2) ∧ g.haveEl3 = true ∧ c.el3IsAArch32 = false ∧
        c.mdcrEl3Ttrf = 1#1 ∧ ¬ (c.halted = true ∧ c.edscrSdd = 1#1)) ∧
    (accessCheck g c = .trapMonitor →
      c.sdcrTtrf = 1#1 ∧
        (((c.el = .el1 ∨ c.el = .el2) ∧ g.haveEl3 = true ∧ c.el3IsAArch32 = true ∧
            ¬ (c.halted = true ∧ c.edscrSdd = 1#1) ∧ (c.el = .el1 → c.mIsMonitor = false)) ∨
          (c.el = .el3 ∧ c.mIsMonitor = false)))

/-- 60_exceptions.md R120, R126: the check of a present register gives Undefined exactly at EL0, and at EL1 and EL2 when
halted with EDSCR.SDD set under a trap to EL3 that no trap to EL2 forestalls. -/
def Obligations.UndefinedExactlyWhereTheCausesSay : Prop :=
  ∀ (g : Config) (c : Ctx),
    accessCheck g c = .undefined ↔
      c.el = .el0 ∨
      (c.el = .el1 ∧ c.halted = true ∧ c.edscrSdd = 1#1 ∧ g.haveEl3 = true ∧
        ((c.el3IsAArch32 = false ∧ c.mdcrEl3Ttrf = 1#1) ∨
          (c.el3IsAArch32 = true ∧ c.mIsMonitor = false ∧ c.sdcrTtrf = 1#1)) ∧
        (g.sddPriority = true ∨
          ¬ ((c.el2Enabled = true ∧ c.el2IsAArch32 = false ∧ (c.hstrEl2T1 = 1#1 ∨ c.mdcrEl2Ttrf = 1#1)) ∨
            (c.el2Enabled = true ∧ c.el2IsAArch32 = true ∧ (c.hstrT1 = 1#1 ∨ c.hdcrTtrf = 1#1))))) ∨
      (c.el = .el2 ∧ c.halted = true ∧ c.edscrSdd = 1#1 ∧ g.haveEl3 = true ∧
        ((c.el3IsAArch32 = false ∧ c.mdcrEl3Ttrf = 1#1) ∨ (c.el3IsAArch32 = true ∧ c.sdcrTtrf = 1#1)))

/-- 40_sysreg_access.md R91; 60_exceptions.md R129 (D11, log 8): on a present register every instruction that executes
ends as the check says: with the label and its argument when the outcome is not Access, with a next state when it is. -/
def Obligations.EveryOutcomeEndsTheAccessUnderItsLabel : Prop :=
  ∀ (i : Instr) (s : State), Executes i s → trfcrPresent s.cfg = true →
    match accessCheck s.cfg s.ctx with
    | .access => ∃ t, exec i s = .next t
    | .undefined => exec i s = .fault .undefined
    | .trapEL2A64 code => exec i s = .fault (.trapEL2A64 code)
    | .trapHyp code => exec i s = .fault (.trapHyp code)
    | .trapEL3A64 code => exec i s = .fault (.trapEL3A64 code)
    | .trapMonitor => exec i s = .fault .trapMonitor

/-- 40_sysreg_access.md R94 (E1.9), R95 (E2.5), R96 (E3.2); 60_exceptions.md R131, R132: above EL0 all four instructions
complete wherever no trap control in use is set: at EL3 in Monitor mode or with SDCR.TTRF 0; at EL1 and EL2 with the TTRF
of the EL3 in use 0 (at EL1 SDCR.TTRF counts outside Monitor mode only); at EL1 besides with both controls of the EL2 in
use 0. That the program counter is then 4 further is PRESUMED (10_state.md R47, D17, log 5). -/
def Obligations.UntrappedPrivilegedAccessCompletes : Prop :=
  ∀ (i : Instr) (s : State), Executes i s → s.cfg.aarch32AnyEl = true → s.cfg.featTrf = true → s.ctx.el ≠ .el0 →
    (s.ctx.el = .el3 → s.ctx.mIsMonitor = true ∨ s.ctx.sdcrTtrf = 0#1) →
    (s.ctx.el ≠ .el3 → s.cfg.haveEl3 = true →
      (s.ctx.el3IsAArch32 = false → s.ctx.mdcrEl3Ttrf = 0#1) ∧
      (s.ctx.el3IsAArch32 = true → s.ctx.sdcrTtrf = 0#1 ∨ (s.ctx.el = .el1 ∧ s.ctx.mIsMonitor = true))) →
    (s.ctx.el = .el1 → s.ctx.el2Enabled = true →
      (s.ctx.el2IsAArch32 = false → s.ctx.hstrEl2T1 = 0#1 ∧ s.ctx.mdcrEl2Ttrf = 0#1) ∧
      (s.ctx.el2IsAArch32 = true → s.ctx.hstrT1 = 0#1 ∧ s.ctx.hdcrTtrf = 0#1)) →
    ∃ t, exec i s = .next t ∧ t.pc = s.pc + 4

/-! ## The read and the write -/

/-- 40_sysreg_access.md R100; 10_state.md R44: a read (both MRC constructors) that reaches a register whose TS is known
leaves its 32 bits in the destination register and nothing else but the program counter changed, which is 4 further
(PRESUMED: 10_state.md R47, D17, log 5). -/
def Obligations.MrcLeavesTheRegisterValueInItsDestination : Prop :=
  ∀ (i : Instr) (s : State) (ts : BitVec 2), i.isRead = true → Reaches i s → s.trfcr.ts = .known ts →
    ∃ t, exec i s = .next t ∧
      readGpr t i.rt =
        (if s.cfg.res0Storage then s.trfcr.resHi else 0#25) ++ ts ++ (if s.cfg.res0Storage then s.trfcr.resLo else 0#3)
          ++ s.trfcr.e1tre ++ s.trfcr.e0tre ∧
      (∀ r : RegNum, r ≠ i.rt → readGpr t r = readGpr s r) ∧
      t = { s with gpr := t.gpr, pc := s.pc + 4 }

/-- 40_sysreg_access.md R100; 10_state.md R32 (D2, log 6): a read (both MRC constructors) that reaches a register whose
TS is UNKNOWN completes as well, with some two bits for TS; the mark stays, and nothing but the destination, the program
counter and the model's count of draws changes. That the program counter is 4 further is PRESUMED (10_state.md R47, D17,
log 5). -/
def Obligations.MrcOfUnknownTimestampFieldCompletes : Prop :=
  ∀ (i : Instr) (s : State), i.isRead = true → Reaches i s → s.trfcr.ts = .unknown →
    ∃ (t : State) (ts : BitVec 2), exec i s = .next t ∧
      readGpr t i.rt =
        (if s.cfg.res0Storage then s.trfcr.resHi else 0#25) ++ ts ++ (if s.cfg.res0Storage then s.trfcr.resLo else 0#3)
          ++ s.trfcr.e1tre ++ s.trfcr.e0tre ∧
      (∀ r : RegNum, r ≠ i.rt → readGpr t r = readGpr s r) ∧
      t = { s with gpr := t.gpr, pc := s.pc + 4, draws := t.draws }

/-- 40_sysreg_access.md R101; 10_state.md R28, R44; 70_reset_and_hazards.md R155: a write (both MCR constructors) that
reaches the register stores every field of the source register, reserved TS values included, and the reserved bits
exactly when they are storage; the value held before stays usable by the trace functions; nothing else but the program
counter changes, the general registers least of all. That the program counter is 4 further is PRESUMED (10_state.md R47,
D17, log 5). -/
def Obligations.McrStoresItsSourceInTheRegister : Prop :=
  ∀ (i : Instr) (s : State), i.isRead = false → Reaches i s →
    ∃ t, exec i s = .next t ∧
      t.trfcr.ts = .known ((readGpr s i.rt).extractLsb' 5 2) ∧
      t.trfcr.e1tre = (readGpr s i.rt).extractLsb' 1 1 ∧
      t.trfcr.e0tre = (readGpr s i.rt).extractLsb' 0 1 ∧
      (s.cfg.res0Storage = true →
        t.trfcr.resHi = (readGpr s i.rt).extractLsb' 7 25 ∧ t.trfcr.resLo = (readGpr s i.rt).extractLsb' 2 3) ∧
      (s.cfg.res0Storage = false → t.trfcr.resHi = s.trfcr.resHi ∧ t.trfcr.resLo = s.trfcr.resLo) ∧
      t.held = s.held ++ [s.trfcr] ∧
      t = { s with trfcr := t.trfcr, held := t.held, pc := s.pc + 4 }

/-- 40_sysreg_access.md R102: a read that follows a write with nothing between them returns the written value, masked
by what is stored. -/
def Obligations.ReadAfterWriteReturnsTheStoredBits : Prop :=
  ∀ (w r : Instr) (s : State), w.isRead = false → r.isRead = true → Reaches w s → Executes r s →
    ∃ t u, exec w s = .next t ∧ exec r t = .next u ∧
      readGpr u r.rt = if s.cfg.res0Storage then readGpr s w.rt else readGpr s w.rt &&& 0x00000063#32

/-- 40_sysreg_access.md R100, 10_state.md R24, R33: with hardwired reserved bits every value a read delivers has 0 in
all of them, in every state and whatever TS is. -/
def Obligations.HardwiredReservedBitsReadZero : Prop :=
  ∀ (i : Instr) (s t : State), i.isRead = true → s.cfg.res0Storage = false → exec i s = .next t →
    readGpr t i.rt &&& 0xFFFFFF9C#32 = 0#32

/-- 20_memory.md R63: two reads with nothing between them return the same value when TS is known; when it is UNKNOWN
they agree in every other bit (10_state.md R32). -/
def Obligations.TwoReadsAgree : Prop :=
  ∀ (a b : Instr) (s t u : State), a.isRead = true → b.isRead = true → exec a s = .next t → exec b t = .next u →
    (s.trfcr.ts ≠ .unknown → readGpr u b.rt = readGpr t a.rt) ∧
    readGpr u b.rt &&& 0xFFFFFF9F#32 = readGpr t a.rt &&& 0xFFFFFF9F#32

/-- 10_state.md R32 with 40_sysreg_access.md R102 (vector P2's point): writing back what a read delivered makes every
later read deliver that same value, also when TS was UNKNOWN. -/
def Obligations.WritingBackWhatWasReadFixesIt : Prop :=
  ∀ (a w b : Instr) (s : State), a.isRead = true → w.isRead = false → b.isRead = true → w.rt = a.rt →
    Reaches a s → Executes w s → Executes b s →
    ∃ t u v, exec a s = .next t ∧ exec w t = .next u ∧ exec b u = .next v ∧ readGpr v b.rt = readGpr t a.rt

/-- 10_state.md R41: whether the fields are ignored changes nothing an access does. -/
def Obligations.AccessDoesNotDependOnIgnoreConditions : Prop :=
  ∀ (i : Instr) (s t : State) (sht : Bool) (hts : BitVec 2) (tge : BitVec 1), exec i s = .next t →
    exec i { s with ctx := { s.ctx with selfHostedTraceEnabled := sht, htrfcrTs := hts, hcrTge := tge } } =
      .next { t with ctx := { s.ctx with selfHostedTraceEnabled := sht, htrfcrTs := hts, hcrTge := tge } }

/-- 30_encoding.md R77 (log 11): outside an IT block, and inside one whose condition is `c`, the T32 forms do what the
A32 forms with that condition do, for every register number both sets admit. -/
def Obligations.T32FormsActAsTheA32FormsWithTheirCondition : Prop :=
  ∀ (rt : RegNum) (s : State), rt ≠ 13#4 →
    exec (.mrcTrfcrT32 rt) s = exec (.mrcTrfcrA32 s.issue.itCond rt) s ∧
    exec (.mcrTrfcrT32 rt) s = exec (.mcrTrfcrA32 s.issue.itCond rt) s

/-- 10_state.md R45, 40_sysreg_access.md R97, R100, R101: the frame of all four instructions: when one completes, the
parameters, the inputs, the records of the trace hardware and the queue are unchanged, a read leaves the register and its
earlier values, and a write leaves every general register. -/
def Obligations.InstructionsLeaveTheirFrame : Prop :=
  ∀ (i : Instr) (s t : State), exec i s = .next t →
    t.cfg = s.cfg ∧ t.ctx = s.ctx ∧ t.issue = s.issue ∧ t.inputs = s.inputs ∧
    t.lastVerdict = s.lastVerdict ∧ t.lastTimebase = s.lastTimebase ∧
    (i.isRead = true → t.trfcr = s.trfcr ∧ t.held = s.held ∧ ∀ r : RegNum, r ≠ i.rt → readGpr t r = readGpr s r) ∧
    (i.isRead = false → t.gpr = s.gpr ∧ t.draws = s.draws)

/-! ## The other agents -/

/-- 10_state.md R36, R40: a Warm reset of a present register sets E1TRE and E0TRE to 0. -/
def Obligations.WarmResetClearsBothTraceEnables : Prop :=
  ∀ s : State, trfcrPresent s.cfg = true →
    (applyEvent .warmReset s).trfcr.e1tre = 0#1 ∧ (applyEvent .warmReset s).trfcr.e0tre = 0#1

/-- 70_reset_and_hazards.md R150, R151 (D2, D4, D5; logs 6, 7, 14): a Warm and a Cold reset of a present register leave
TS UNKNOWN, both enables 0, some value in the reserved bits if they are storage, no earlier value in use, and nothing
else changed but the count of draws; without the register they change nothing. That the program counter and everything
else outside TRFCR stay as they were is the model's choice (R152, log 27). -/
def Obligations.ResetsDoExactlyWhatTheRuleSays : Prop :=
  ∀ (s : State) (e : Event), (e = .warmReset ∨ e = .coldReset) →
    (trfcrPresent s.cfg = false → applyEvent e s = s) ∧
    (trfcrPresent s.cfg = true → ∃ (hi : BitVec 25) (lo : BitVec 3) (n : Nat),
      applyEvent e s =
        { s with
          trfcr := { resHi := hi, ts := .unknown, resLo := lo, e1tre := 0#1, e0tre := 0#1 }
          held := []
          draws := n } ∧
      (s.cfg.res0Storage = false → hi = s.trfcr.resHi ∧ lo = s.trfcr.resLo))

/-- 70_reset_and_hazards.md R151, 10_state.md R43 (D4, log 14): the first state of a run holds what a Cold reset leaves. -/
def Obligations.FirstStateIsTheStateAfterColdReset : Prop :=
  State.reset.trfcr = { resHi := 0#25, ts := .unknown, resLo := 0#3, e1tre := 0#1, e0tre := 0#1 } ∧
  State.reset.held = [] ∧
  (applyEvent .coldReset State.reset).trfcr = State.reset.trfcr

/-- 10_state.md R22 (D15, log 17): a write of TRFCR_EL1[31:0] is a write of TRFCR: it leaves in the register what an MCR
of the same value leaves there, and the same earlier values in use. -/
def Obligations.TrfcrEl1WriteIsAWriteOfTheSameStorage : Prop :=
  ∀ (i : Instr) (s : State), i.isRead = false → Reaches i s →
    ∃ t, exec i s = .next t ∧
      t.trfcr = (applyEvent (.writeTrfcrEl1 (readGpr s i.rt)) s).trfcr ∧
      t.held = (applyEvent (.writeTrfcrEl1 (readGpr s i.rt)) s).held

/-! ## Trace and timestamp -/

/-- 10_state.md R35: without self-hosted trace E1TRE, whatever it holds, neither prohibits nor allows anything. -/
def Obligations.NoVerdictWithoutSelfHostedTrace : Prop :=
  ∀ (g : Config) (c : Ctx) (r : Trfcr), c.selfHostedTraceEnabled = false →
    traceVerdict g c r ≠ .prohibited ∧ traceVerdict g c r ≠ .allowed

/-- 10_state.md R38, R39; 60_exceptions.md R133: at EL0 a present register's E0TRE decides, unless it is ignored; then
the register says nothing. -/
def Obligations.E0treDecidesTheVerdictAtEl0 : Prop :=
  ∀ (g : Config) (c : Ctx) (r : Trfcr), trfcrPresent g = true → c.el = .el0 → c.selfHostedTraceEnabled = true →
    (c.el2Enabled = true ∧ c.hcrTge = 1#1 → traceVerdict g c r = .noSay) ∧
    (¬ (c.el2Enabled = true ∧ c.hcrTge = 1#1) →
      (r.e0tre = 0#1 → traceVerdict g c r = .prohibited) ∧ (r.e0tre = 1#1 → traceVerdict g c r = .allowed))

/-- 10_state.md R34, R37; 60_exceptions.md R133: in a PL1 mode at any level but EL0 a present register's E1TRE decides;
elsewhere the register says nothing. -/
def Obligations.E1treDecidesTheVerdictInPl1Modes : Prop :=
  ∀ (g : Config) (c : Ctx) (r : Trfcr), trfcrPresent g = true → c.el ≠ .el0 → c.selfHostedTraceEnabled = true →
    (c.inPl1Mode = true →
      (r.e1tre = 0#1 → traceVerdict g c r = .prohibited) ∧ (r.e1tre = 1#1 → traceVerdict g c r = .allowed)) ∧
    (c.inPl1Mode = false → traceVerdict g c r = .noSay)

/-- 10_state.md R24, R33; 60_exceptions.md R133, R135: the verdict depends on the register through the one enable bit of
the level, the timebase through TS alone; the reserved bits have no effect on either. -/
def Obligations.TraceFunctionsReadOnlyTheirOwnField : Prop :=
  ∀ (g : Config) (c : Ctx) (free : Count) (r r' : Trfcr),
    (c.el = .el0 → r'.e0tre = r.e0tre → traceVerdict g c r' = traceVerdict g c r) ∧
    (c.el ≠ .el0 → r'.e1tre = r.e1tre → traceVerdict g c r' = traceVerdict g c r) ∧
    (r'.ts = r.ts → timebaseSample g c free r' = timebaseSample g c free r)

/-- 10_state.md R26; 60_exceptions.md R135: the defined values of TS select their timebases. -/
def Obligations.DefinedTimestampFieldSelectsItsTimebase : Prop :=
  ∀ (g : Config) (c : Ctx) (r : Trfcr), trfcrPresent g = true → c.selfHostedTraceEnabled = true → c.htrfcrTs = 0b00#2 →
    (r.ts = .known 0b01#2 → timebaseChoice g c r = .virtualTime) ∧
    (r.ts = .known 0b10#2 → g.featEcv = true → timebaseChoice g c r = .guestPhysical) ∧
    (r.ts = .known 0b11#2 → timebaseChoice g c r = .physical)

/-- 10_state.md R27, R32; 60_exceptions.md R135 (D2, D3; logs 6, 15): a reserved or UNKNOWN TS leaves the timebase
unconstrained, and the traced timestamp is then the free value. -/
def Obligations.ReservedOrUnknownTimestampFieldIsUnconstrained : Prop :=
  ∀ (g : Config) (c : Ctx) (free : Count) (r : Trfcr), trfcrPresent g = true → c.selfHostedTraceEnabled = true →
    c.htrfcrTs = 0b00#2 →
    (r.ts = .unknown ∨ r.ts = .known 0b00#2 ∨ (r.ts = .known 0b10#2 ∧ g.featEcv = false)) →
    timebaseSample g c free r = { choice := .unconstrained, stamp := some free }

/-- 10_state.md R29: when TS is ignored its value has no effect on the traced timestamp: registers that differ in it, or
in anything else, give the same. -/
def Obligations.IgnoredTimestampFieldHasNoEffect : Prop :=
  ∀ (g : Config) (c : Ctx) (free : Count) (r r' : Trfcr),
    (c.selfHostedTraceEnabled = false ∨ c.htrfcrTs ≠ 0b00#2) →
    timebaseSample g c free r = timebaseSample g c free r'

/-- 60_exceptions.md R135, R136 (D24, log 22): an ignored TS and an absent register determine no timebase and no
timestamp. -/
def Obligations.IgnoredOrAbsentRegisterDeterminesNoTimestamp : Prop :=
  ∀ (g : Config) (c : Ctx) (free : Count) (r : Trfcr),
    (trfcrPresent g = false ∨ c.selfHostedTraceEnabled = false ∨ c.htrfcrTs ≠ 0b00#2) →
    timebaseSample g c free r = { choice := .noSay, stamp := none }

/-- 60_exceptions.md R136, 10_state.md R30 (D16, D18; logs 18, 19): what the trace hardware traces for each defined TS
when no earlier value is in use: the physical count less CNTVOFF, less CNTPOFF_EL2 or zero, or itself, as natural
numbers modulo 2^64. -/
def Obligations.TracedTimestampIsTheSelectedCount : Prop :=
  ∀ s : State, trfcrPresent s.cfg = true → s.ctx.selfHostedTraceEnabled = true → s.ctx.htrfcrTs = 0b00#2 → s.held = [] →
    (s.trfcr.ts = .known 0b01#2 → ∃ v : Count,
      (applyEvent .evalTimebase s).lastTimebase = some { choice := .virtualTime, stamp := some v } ∧
      v.toNat = (s.ctx.physCount.toNat + (2 ^ 64 - s.ctx.cntvoff.toNat)) % 2 ^ 64) ∧
    (s.trfcr.ts = .known 0b10#2 → s.cfg.featEcv = true → ∃ v : Count,
      (applyEvent .evalTimebase s).lastTimebase = some { choice := .guestPhysical, stamp := some v } ∧
      ((s.ctx.el2Enabled = true ∧ s.ctx.el2IsAArch32 = true) ∨ s.ctx.cnthctlEl2Ecv = 0#1 ∨ s.ctx.scrEl3EcvEn = 0#1 ∨
          (s.ctx.hcrEl2E2h = 1#1 ∧ s.ctx.hcrEl2Tge = 1#1) →
        v = s.ctx.physCount) ∧
      (¬ ((s.ctx.el2Enabled = true ∧ s.ctx.el2IsAArch32 = true) ∨ s.ctx.cnthctlEl2Ecv = 0#1 ∨
          s.ctx.scrEl3EcvEn = 0#1 ∨ (s.ctx.hcrEl2E2h = 1#1 ∧ s.ctx.hcrEl2Tge = 1#1)) →
        v.toNat = (s.ctx.physCount.toNat + (2 ^ 64 - s.ctx.cntpoffEl2.toNat)) % 2 ^ 64)) ∧
    (s.trfcr.ts = .known 0b11#2 →
      (applyEvent .evalTimebase s).lastTimebase = some { choice := .physical, stamp := some s.ctx.physCount })

/-- 60_exceptions.md R134; 70_reset_and_hazards.md R150, and for a Cold reset R151, which is a decision of the spec's
(D4, log 14): straight after a reset, where the enables are not ignored, the
trace hardware's verdict at EL0 and in PL1 modes is Prohibited, whatever the register held before. -/
def Obligations.TracingIsProhibitedAfterAReset : Prop :=
  ∀ (s : State) (e : Event), (e = .warmReset ∨ e = .coldReset) → trfcrPresent s.cfg = true →
    s.ctx.selfHostedTraceEnabled = true →
    ((s.ctx.el = .el0 ∧ ¬ (s.ctx.el2Enabled = true ∧ s.ctx.hcrTge = 1#1)) ∨
      (s.ctx.el ≠ .el0 ∧ s.ctx.inPl1Mode = true)) →
    (applyEvent .evalVerdict (applyEvent e s)).lastVerdict = some .prohibited

/-- 70_reset_and_hazards.md R155 (D14, log 16): each evaluation of a trace function uses the current value or one held
since the last ContextSync; the evaluations change neither the register nor the values that stay usable. -/
def Obligations.EvaluationUsesAValueHeldSinceTheLastSync : Prop :=
  ∀ s : State,
    (∃ r ∈ s.held ++ [s.trfcr],
      (applyEvent .evalVerdict s).lastVerdict = some (traceVerdict s.cfg s.ctx r)) ∧
    (∃ r ∈ s.held ++ [s.trfcr], ∃ free : Count,
      (applyEvent .evalTimebase s).lastTimebase = some (timebaseSample s.cfg s.ctx free r)) ∧
    (applyEvent .evalVerdict s).trfcr = s.trfcr ∧ (applyEvent .evalTimebase s).trfcr = s.trfcr ∧
    (applyEvent .evalVerdict s).held = s.held ∧ (applyEvent .evalTimebase s).held = s.held

/-- 70_reset_and_hazards.md R155, "from the `ContextSync` on, only `N`" (D14, log 16): after a ContextSync, which leaves
the register as it was, and any run of further steps up to the next write, no earlier value is in use, and each evaluation
of a trace function gives that of the current value. -/
def Obligations.ContextSyncLeavesOnlyTheCurrentValue : Prop :=
  ∀ s : State,
    (applyEvent .contextSync s).trfcr = s.trfcr ∧
    ∀ t : State, RunsWithoutWrite (applyEvent .contextSync s) t →
      t.held = [] ∧
      (applyEvent .evalVerdict t).lastVerdict = some (traceVerdict t.cfg t.ctx t.trfcr) ∧
      ∃ free : Count, (applyEvent .evalTimebase t).lastTimebase = some (timebaseSample t.cfg t.ctx free t.trfcr)

/-- 70_reset_and_hazards.md R155, "any of the values held since the last ContextSync may be used": after any number of
writes of a present register, every value usable before them, and the value each of them left, is still usable. -/
def Obligations.EveryValueHeldSinceTheSyncStaysUsable : Prop :=
  ∀ (vs ws : List Word) (s : State), trfcrPresent s.cfg = true →
    ∀ r ∈ usableValues (vs.foldl (fun t v => applyEvent (.writeTrfcrEl1 v) t) s),
      r ∈ usableValues ((vs ++ ws).foldl (fun t v => applyEvent (.writeTrfcrEl1 v) t) s)

/-! ## Rules of the whole machine -/

/-- 10_state.md R24, R33, R21 (the reserved bits hardwired to 0 hold 0 in every value in use, and an absent register has
no earlier values): the invariant holds at reset. -/
def Obligations.InvariantAtReset : Prop := State.reset.Inv

/-- 10_state.md R24, R33, R21: every step keeps the invariant, from every state that has it. -/
def Obligations.EveryStepKeepsTheInvariant : Prop :=
  ∀ s t : State, s.Inv → step s = .next t → t.Inv

/-- 00_scope.md R3: no step changes a static parameter. -/
def Obligations.NoStepChangesAParameter : Prop :=
  ∀ s t : State, step s = .next t → t.cfg = s.cfg

/-- 20_memory.md R66; 60_exceptions.md R127; 10_state.md R22: a step changes TRFCR only when the register is present and
the step is a reset, a write through TRFCR_EL1, or a write instruction that reached the register. -/
def Obligations.OnlyWritesAndResetsChangeTheRegister : Prop :=
  ∀ s t : State, step s = .next t → t.trfcr ≠ s.trfcr →
    trfcrPresent s.cfg = true ∧
    ((∃ rest, s.inputs = .event .warmReset :: rest) ∨
      (∃ rest, s.inputs = .event .coldReset :: rest) ∨
      (∃ v rest, s.inputs = .event (.writeTrfcrEl1 v) :: rest) ∨
      (∃ w rest i, s.inputs = .word w :: rest ∧ decode s.issue.iset w = .instr i ∧ i.isRead = false ∧ Reaches i s))

/-- 70_reset_and_hazards.md R155, R150 (D14, logs 14, 16): a step leaves the earlier values that stay usable as they were,
or empties them, and then it is a ContextSync or a reset, or adds the value the register held, and then it is a write of a
present register: through TRFCR_EL1, or by a write instruction that reached it. -/
def Obligations.OnlyWritesSyncsAndResetsChangeTheEarlierValues : Prop :=
  ∀ s t : State, step s = .next t →
    t.held = s.held ∨
    (t.held = [] ∧
      ((∃ rest, s.inputs = .event .contextSync :: rest) ∨ (∃ rest, s.inputs = .event .warmReset :: rest) ∨
        (∃ rest, s.inputs = .event .coldReset :: rest))) ∨
    (t.held = s.held ++ [s.trfcr] ∧ trfcrPresent s.cfg = true ∧ WritesNext s)

/-- 10_state.md R32: only a reset sets the mark UNKNOWN on TS. -/
def Obligations.OnlyAResetMakesTheTimestampFieldUnknown : Prop :=
  ∀ (s t : State) (ts : BitVec 2), step s = .next t → s.trfcr.ts = .known ts → t.trfcr.ts = .unknown →
    (∃ rest, s.inputs = .event .warmReset :: rest) ∨ (∃ rest, s.inputs = .event .coldReset :: rest)

/-- 10_state.md R21: without the register no instruction completes, and no step of any agent changes its storage or
gives it earlier values, from every state with the invariant. -/
def Obligations.AbsentRegisterIsNeverReachedOrChanged : Prop :=
  ∀ s : State, (s.cfg.aarch32AnyEl = false ∨ s.cfg.featTrf = false) →
    (∀ i t, exec i s ≠ .next t) ∧ (s.Inv → ∀ t, step s = .next t → t.trfcr = s.trfcr ∧ t.held = [])

/-- 60_exceptions.md R132; 10_state.md R42: no step at EL0 changes a general register or TRFCR by an instruction: a word
at the head of the queue never gives a next state. -/
def Obligations.NoWordCompletesAtEl0 : Prop :=
  ∀ (s : State) (w : Word) (rest : List Input), s.inputs = .word w :: rest → s.ctx.el = .el0 → ∀ t, step s ≠ .next t

/-- 10_state.md R45, R46: a step changes the inputs or a general register only where the environment or a read does: the
context only by `setCtx`, a general register only by `setGpr` or a read instruction that reached the register. -/
def Obligations.OnlyTheEnvironmentAndReadsChangeWhatItOwns : Prop :=
  ∀ s t : State, step s = .next t →
    (t.ctx ≠ s.ctx → ∃ c rest, s.inputs = .event (.setCtx c) :: rest) ∧
    (t.gpr ≠ s.gpr → (∃ n v rest, s.inputs = .event (.setGpr n v) :: rest) ∨
      (∃ w rest i, s.inputs = .word w :: rest ∧ decode s.issue.iset w = .instr i ∧ i.isRead = true ∧ Reaches i s))
end

