-- ==== Sys2Proof/Laws/Decode.lean ====
section
/-! SUPPORT. Small facts about the decoder's and the encoder's fields. -/

namespace Sys2Proof

theorem condOfCode_condCode (c : Cond) : condOfCode (condCode c) = some c := by cases c <;> rfl

theorem condCode_of_condOfCode {b : BitVec 4} {c : Cond} (h : condOfCode b = some c) : condCode c = b := by
  revert c b
  have : ∀ b : BitVec 4, ∀ c ∈ condOfCode b, condCode c = b := by decide
  exact fun b c h => this b c h

theorem formOf_iset (iset : InstrSet) (c : Cond) (d : BitVec 1) (rt : RegNum) : (formOf iset c d rt).iset = iset := by
  cases iset <;> simp only [formOf] <;> split <;> rfl

theorem formOf_rt (iset : InstrSet) (c : Cond) (d : BitVec 1) (rt : RegNum) : (formOf iset c d rt).rt = rt := by
  cases iset <;> simp only [formOf] <;> split <;> rfl

theorem formOf_isRead (iset : InstrSet) (c : Cond) (d : BitVec 1) (rt : RegNum) :
    (formOf iset c d rt).isRead = (d == 1#1) := by
  cases iset <;> simp only [formOf] <;> split <;> simp_all [Instr.isRead]

/-- The head field an instruction is encoded with is the one it was read from. -/
theorem headField_formOf {iset : InstrSet} {b : BitVec 4} {c : Cond} (d : BitVec 1) (rt : RegNum)
    (h : headOf iset b = some c) : headField (formOf iset c d rt) = b := by
  cases iset with
  | a32 =>
    have := condCode_of_condOfCode h
    simp only [formOf]
    split <;> exact this
  | t32 =>
    have : b = 0b1110#4 := by
      simp only [headOf] at h
      split at h
      · simp_all
      · cases h
    simp only [formOf]
    split <;> exact this.symm

/-- A word that names TRFCR is its head field, direction and register number in the one layout (30_encoding.md R76). -/
theorem word_of_namesTrfcr {w : Word} (h : namesTrfcr w = true) :
    condField w ++ 0b1110#4 ++ 0b000#3 ++ directionField w ++ 0b0001#4 ++ rtField w ++ 0b1111#4 ++ 0b001#3 ++ 1#1
      ++ 0b0010#4 = w := by
  simp only [namesTrfcr, sysRegAddrOf, trfcrAddr, Bool.and_eq_true, beq_iff_eq, SysRegAddr.mk.injEq, opField,
    markField] at h
  obtain ⟨⟨h1, h2⟩, h3, h4, h5, h6, h7⟩ := h
  rw [← h1, ← h2, ← h6, ← h3, ← h5, ← h4, ← h7]
  simp only [condField, directionField, rtField]
  iterate 9 rw [BitVec.extractLsb'_append_extractLsb'_eq_extractLsb' (by rfl)]
  ext
  simp

/-- Everything the decoder can answer with an instruction. -/
theorem decode_instr {iset : InstrSet} {w : Word} {i : Instr} (h : decode iset w = .instr i) :
    namesTrfcr w = true ∧ Machine.rtAdmitted iset (rtField w) = true ∧
      ∃ c, headOf iset (condField w) = some c ∧ i = formOf iset c (directionField w) (rtField w) := by
  unfold decode at h
  split at h
  · next hn =>
    split at h
    · cases h
    · next c hc =>
      split at h
      · next ha => exact ⟨hn, ha, c, hc, (Decoded.instr.inj h).symm⟩
      · cases h
  · cases h

end Sys2Proof
end

