-- ==== Sys2Proof/Laws/State.lean ====
section
/-! SUPPORT. One lemma per field per update of the state, true by unfolding the update once. -/

namespace Sys2Proof.Machine

@[simp] theorem writeGpr_cfg (s : State) (t : RegNum) (v : Word) : (writeGpr s t v).cfg = s.cfg := rfl
@[simp] theorem writeGpr_ctx (s : State) (t : RegNum) (v : Word) : (writeGpr s t v).ctx = s.ctx := rfl
@[simp] theorem writeGpr_issue (s : State) (t : RegNum) (v : Word) : (writeGpr s t v).issue = s.issue := rfl
@[simp] theorem writeGpr_gpr (s : State) (t : RegNum) (v : Word) : (writeGpr s t v).gpr = s.gpr.set t.toNat v t.isLt := rfl
@[simp] theorem writeGpr_pc (s : State) (t : RegNum) (v : Word) : (writeGpr s t v).pc = s.pc := rfl
@[simp] theorem writeGpr_trfcr (s : State) (t : RegNum) (v : Word) : (writeGpr s t v).trfcr = s.trfcr := rfl
@[simp] theorem writeGpr_held (s : State) (t : RegNum) (v : Word) : (writeGpr s t v).held = s.held := rfl
@[simp] theorem writeGpr_inputs (s : State) (t : RegNum) (v : Word) : (writeGpr s t v).inputs = s.inputs := rfl
@[simp] theorem writeGpr_draws (s : State) (t : RegNum) (v : Word) : (writeGpr s t v).draws = s.draws := rfl
@[simp] theorem writeGpr_lastVerdict (s : State) (t : RegNum) (v : Word) : (writeGpr s t v).lastVerdict = s.lastVerdict := rfl
@[simp] theorem writeGpr_lastTimebase (s : State) (t : RegNum) (v : Word) : (writeGpr s t v).lastTimebase = s.lastTimebase := rfl

@[simp] theorem advancePc_cfg (s : State) : (advancePc s).cfg = s.cfg := rfl
@[simp] theorem advancePc_ctx (s : State) : (advancePc s).ctx = s.ctx := rfl
@[simp] theorem advancePc_issue (s : State) : (advancePc s).issue = s.issue := rfl
@[simp] theorem advancePc_gpr (s : State) : (advancePc s).gpr = s.gpr := rfl
@[simp] theorem advancePc_pc (s : State) : (advancePc s).pc = s.pc + 4 := rfl
@[simp] theorem advancePc_trfcr (s : State) : (advancePc s).trfcr = s.trfcr := rfl
@[simp] theorem advancePc_held (s : State) : (advancePc s).held = s.held := rfl
@[simp] theorem advancePc_inputs (s : State) : (advancePc s).inputs = s.inputs := rfl
@[simp] theorem advancePc_draws (s : State) : (advancePc s).draws = s.draws := rfl
@[simp] theorem advancePc_lastVerdict (s : State) : (advancePc s).lastVerdict = s.lastVerdict := rfl
@[simp] theorem advancePc_lastTimebase (s : State) : (advancePc s).lastTimebase = s.lastTimebase := rfl

@[simp] theorem countDraw_cfg (s : State) : (countDraw s).cfg = s.cfg := rfl
@[simp] theorem countDraw_ctx (s : State) : (countDraw s).ctx = s.ctx := rfl
@[simp] theorem countDraw_issue (s : State) : (countDraw s).issue = s.issue := rfl
@[simp] theorem countDraw_gpr (s : State) : (countDraw s).gpr = s.gpr := rfl
@[simp] theorem countDraw_pc (s : State) : (countDraw s).pc = s.pc := rfl
@[simp] theorem countDraw_trfcr (s : State) : (countDraw s).trfcr = s.trfcr := rfl
@[simp] theorem countDraw_held (s : State) : (countDraw s).held = s.held := rfl
@[simp] theorem countDraw_inputs (s : State) : (countDraw s).inputs = s.inputs := rfl
@[simp] theorem countDraw_draws (s : State) : (countDraw s).draws = s.draws + 1 := rfl
@[simp] theorem countDraw_lastVerdict (s : State) : (countDraw s).lastVerdict = s.lastVerdict := rfl
@[simp] theorem countDraw_lastTimebase (s : State) : (countDraw s).lastTimebase = s.lastTimebase := rfl

@[simp] theorem writeTrfcr_cfg (s : State) (v : Word) : (writeTrfcr s v).cfg = s.cfg := rfl
@[simp] theorem writeTrfcr_ctx (s : State) (v : Word) : (writeTrfcr s v).ctx = s.ctx := rfl
@[simp] theorem writeTrfcr_issue (s : State) (v : Word) : (writeTrfcr s v).issue = s.issue := rfl
@[simp] theorem writeTrfcr_gpr (s : State) (v : Word) : (writeTrfcr s v).gpr = s.gpr := rfl
@[simp] theorem writeTrfcr_pc (s : State) (v : Word) : (writeTrfcr s v).pc = s.pc := rfl
@[simp] theorem writeTrfcr_trfcr (s : State) (v : Word) : (writeTrfcr s v).trfcr = unpackTrfcr s.cfg s.trfcr v := rfl
@[simp] theorem writeTrfcr_held (s : State) (v : Word) : (writeTrfcr s v).held = s.held ++ [s.trfcr] := rfl
@[simp] theorem writeTrfcr_inputs (s : State) (v : Word) : (writeTrfcr s v).inputs = s.inputs := rfl
@[simp] theorem writeTrfcr_draws (s : State) (v : Word) : (writeTrfcr s v).draws = s.draws := rfl
@[simp] theorem writeTrfcr_lastVerdict (s : State) (v : Word) : (writeTrfcr s v).lastVerdict = s.lastVerdict := rfl
@[simp] theorem writeTrfcr_lastTimebase (s : State) (v : Word) : (writeTrfcr s v).lastTimebase = s.lastTimebase := rfl

@[simp] theorem contextSync_cfg (s : State) : (contextSync s).cfg = s.cfg := rfl
@[simp] theorem contextSync_ctx (s : State) : (contextSync s).ctx = s.ctx := rfl
@[simp] theorem contextSync_issue (s : State) : (contextSync s).issue = s.issue := rfl
@[simp] theorem contextSync_gpr (s : State) : (contextSync s).gpr = s.gpr := rfl
@[simp] theorem contextSync_pc (s : State) : (contextSync s).pc = s.pc := rfl
@[simp] theorem contextSync_trfcr (s : State) : (contextSync s).trfcr = s.trfcr := rfl
@[simp] theorem contextSync_held (s : State) : (contextSync s).held = [] := rfl
@[simp] theorem contextSync_inputs (s : State) : (contextSync s).inputs = s.inputs := rfl
@[simp] theorem contextSync_draws (s : State) : (contextSync s).draws = s.draws := rfl
@[simp] theorem contextSync_lastVerdict (s : State) : (contextSync s).lastVerdict = s.lastVerdict := rfl
@[simp] theorem contextSync_lastTimebase (s : State) : (contextSync s).lastTimebase = s.lastTimebase := rfl

@[simp] theorem evalVerdict_cfg (s : State) : (evalVerdict s).cfg = s.cfg := rfl
@[simp] theorem evalVerdict_ctx (s : State) : (evalVerdict s).ctx = s.ctx := rfl
@[simp] theorem evalVerdict_issue (s : State) : (evalVerdict s).issue = s.issue := rfl
@[simp] theorem evalVerdict_gpr (s : State) : (evalVerdict s).gpr = s.gpr := rfl
@[simp] theorem evalVerdict_pc (s : State) : (evalVerdict s).pc = s.pc := rfl
@[simp] theorem evalVerdict_trfcr (s : State) : (evalVerdict s).trfcr = s.trfcr := rfl
@[simp] theorem evalVerdict_held (s : State) : (evalVerdict s).held = s.held := rfl
@[simp] theorem evalVerdict_inputs (s : State) : (evalVerdict s).inputs = s.inputs := rfl
@[simp] theorem evalVerdict_draws (s : State) : (evalVerdict s).draws = s.draws + 1 := rfl
@[simp] theorem evalVerdict_lastVerdict (s : State) : (evalVerdict s).lastVerdict = some (traceVerdict s.cfg s.ctx (chosenValue s)) := rfl
@[simp] theorem evalVerdict_lastTimebase (s : State) : (evalVerdict s).lastTimebase = s.lastTimebase := rfl

@[simp] theorem evalTimebase_cfg (s : State) : (evalTimebase s).cfg = s.cfg := rfl
@[simp] theorem evalTimebase_ctx (s : State) : (evalTimebase s).ctx = s.ctx := rfl
@[simp] theorem evalTimebase_issue (s : State) : (evalTimebase s).issue = s.issue := rfl
@[simp] theorem evalTimebase_gpr (s : State) : (evalTimebase s).gpr = s.gpr := rfl
@[simp] theorem evalTimebase_pc (s : State) : (evalTimebase s).pc = s.pc := rfl
@[simp] theorem evalTimebase_trfcr (s : State) : (evalTimebase s).trfcr = s.trfcr := rfl
@[simp] theorem evalTimebase_held (s : State) : (evalTimebase s).held = s.held := rfl
@[simp] theorem evalTimebase_inputs (s : State) : (evalTimebase s).inputs = s.inputs := rfl
@[simp] theorem evalTimebase_draws (s : State) : (evalTimebase s).draws = s.draws + 1 := rfl
@[simp] theorem evalTimebase_lastVerdict (s : State) : (evalTimebase s).lastVerdict = s.lastVerdict := rfl
@[simp] theorem evalTimebase_lastTimebase (s : State) : (evalTimebase s).lastTimebase = some (timebaseSample s.cfg s.ctx (Config.freeStamp s.draws) (chosenValue s)) := rfl

@[simp] theorem placeWord_cfg (s : State) (w : Word) : (placeWord s w).cfg = s.cfg := rfl
@[simp] theorem placeWord_ctx (s : State) (w : Word) : (placeWord s w).ctx = s.ctx := rfl
@[simp] theorem placeWord_issue (s : State) (w : Word) : (placeWord s w).issue = s.issue := rfl
@[simp] theorem placeWord_gpr (s : State) (w : Word) : (placeWord s w).gpr = s.gpr := rfl
@[simp] theorem placeWord_pc (s : State) (w : Word) : (placeWord s w).pc = s.pc := rfl
@[simp] theorem placeWord_trfcr (s : State) (w : Word) : (placeWord s w).trfcr = s.trfcr := rfl
@[simp] theorem placeWord_held (s : State) (w : Word) : (placeWord s w).held = s.held := rfl
@[simp] theorem placeWord_inputs (s : State) (w : Word) : (placeWord s w).inputs = .word w :: s.inputs := rfl
@[simp] theorem placeWord_draws (s : State) (w : Word) : (placeWord s w).draws = s.draws := rfl
@[simp] theorem placeWord_lastVerdict (s : State) (w : Word) : (placeWord s w).lastVerdict = s.lastVerdict := rfl
@[simp] theorem placeWord_lastTimebase (s : State) (w : Word) : (placeWord s w).lastTimebase = s.lastTimebase := rfl

end Sys2Proof.Machine
end

