-- ==== Sys2Proof/Laws/Ops.lean ====
section
/-! SUPPORT. One lemma for each shared operation that says everything it can do. -/

namespace Sys2Proof.Machine

theorem readGpr_writeGpr_same (s : State) (t : RegNum) (v : Word) : readGpr (writeGpr s t v) t = v := by
  simp [readGpr, Vector.get_eq_getElem]

theorem readGpr_writeGpr_other (s : State) {t r : RegNum} (v : Word) (h : r ≠ t) :
    readGpr (writeGpr s t v) r = readGpr s r := by
  have : t.toNat ≠ r.toNat := fun e => h (BitVec.eq_of_toNat_eq e.symm)
  simp [readGpr, Vector.get_eq_getElem, Vector.getElem_set_ne, this]

/-- A read answers the packed register with some two bits for TS, and changes at most the count of draws. -/
theorem readTrfcr_cases (s : State) :
    (∃ v, s.trfcr.ts = .known v ∧ readTrfcr s = (packTrfcr s.cfg s.trfcr v, s)) ∨
      (s.trfcr.ts = .unknown ∧
        readTrfcr s = (packTrfcr s.cfg s.trfcr (Config.freeTs s.draws), countDraw s)) := by
  unfold readTrfcr
  cases s.trfcr.ts with
  | unknown => exact .inr ⟨rfl, rfl⟩
  | known v => exact .inl ⟨v, rfl, rfl⟩

/-- What an instruction does on Access, before the program counter moves on. -/
def instrEffect : Instr → State → State
  | .mrcTrfcrA32 _ rt => readEffect rt
  | .mcrTrfcrA32 _ rt => writeEffect rt
  | .mrcTrfcrT32 rt => readEffect rt
  | .mcrTrfcrT32 rt => writeEffect rt

theorem exec_eq_accessTrfcr (i : Instr) (s : State) : exec i s = accessTrfcr i s (instrEffect i) := by
  cases i <;> rfl

theorem instrEffect_read {i : Instr} (h : i.isRead = true) : instrEffect i = readEffect i.rt := by
  cases i <;> first | rfl | cases h

theorem instrEffect_write {i : Instr} (h : i.isRead = false) : instrEffect i = writeEffect i.rt := by
  cases i <;> first | rfl | cases h

theorem endAccess_next {o : AccessOutcome} {s t : State} {f : State → State} (h : endAccess o s f = .next t) :
    o = .access ∧ t = advancePc (f s) := by
  cases o <;> simp_all [endAccess]

/-- The whole of one access that completes. -/
theorem accessTrfcr_next {i : Instr} {s t : State} {f : State → State} (h : accessTrfcr i s f = .next t) :
    Reaches i s ∧ t = advancePc (f s) := by
  unfold accessTrfcr at h
  split at h
  · cases h
  · next ha =>
    split at h
    · cases h
    · next hc =>
      split at h
      · next hp =>
        have ho := endAccess_next h
        exact ⟨⟨⟨by simpa using ha, by simpa using hc⟩, hp, ho.1⟩, ho.2⟩
      · split at h <;> cases h

theorem accessTrfcr_of_reaches {i : Instr} {s : State} (f : State → State) (h : Reaches i s) :
    accessTrfcr i s f = .next (advancePc (f s)) := by
  obtain ⟨⟨ha, hc⟩, hp, ho⟩ := h
  simp [accessTrfcr, endAccess, ha, hc, hp, ho]

/-- An instruction that executes on a present register ends as the check's outcome says. -/
theorem accessTrfcr_of_present {i : Instr} {s : State} (f : State → State) (h : Executes i s)
    (hp : trfcrPresent s.cfg = true) : accessTrfcr i s f = endAccess (accessCheck s.cfg s.ctx) s f := by
  simp [accessTrfcr, h.1, h.2, hp]

/-- An instruction that executes on an absent register is Undefined or refused. -/
theorem accessTrfcr_of_absent {i : Instr} {s : State} (f : State → State) (h : Executes i s)
    (hp : trfcrPresent s.cfg = false) :
    accessTrfcr i s f = if t1TrapApplies s.ctx then .refused .absentUnderT1Trap else .fault .undefined := by
  simp [accessTrfcr, endAccess, h.1, h.2, hp]

/-- One instruction that completes: it reached the register and had its own effect. -/
theorem exec_next {i : Instr} {s t : State} (h : exec i s = .next t) :
    Reaches i s ∧ t = advancePc (instrEffect i s) := by
  rw [exec_eq_accessTrfcr] at h
  exact accessTrfcr_next h

theorem exec_of_reaches {i : Instr} {s : State} (h : Reaches i s) : exec i s = .next (advancePc (instrEffect i s)) := by
  rw [exec_eq_accessTrfcr, accessTrfcr_of_reaches _ h]

/-- The read's effect leaves everything but the destination register and the count of draws. -/
theorem readEffect_frame (rt : RegNum) (s : State) :
    ∃ g n, readEffect rt s = { s with gpr := g, draws := n } := by
  obtain ⟨v, -, h⟩ | ⟨-, h⟩ := readTrfcr_cases s <;> exact ⟨_, _, by rw [readEffect, h]; rfl⟩

/-- The read's effect in full: the destination holds the packed register with some two bits for TS, which are TS when
it is known, and only the count of draws changes besides. -/
theorem readEffect_cases (rt : RegNum) (s : State) :
    ∃ ts n, readEffect rt s = { writeGpr s rt (packTrfcr s.cfg s.trfcr ts) with draws := n } ∧
      ∀ v, s.trfcr.ts = .known v → ts = v := by
  obtain ⟨v, h0, h⟩ | ⟨h0, h⟩ := readTrfcr_cases s
  · exact ⟨v, s.draws, by rw [readEffect, h]; rfl, by simp [h0]⟩
  · exact ⟨_, s.draws + 1, by rw [readEffect, h]; rfl, by simp [h0]⟩

/-- After an access that reached the register, another instruction that executed before reaches it too. -/
theorem reaches_after {i j : Instr} {s : State} (h : Reaches i s) (he : Executes j s) :
    Reaches j (advancePc (instrEffect i s)) := by
  obtain ⟨-, hp, ho⟩ := h
  cases hr : i.isRead with
  | false =>
    rw [instrEffect_write hr]
    exact ⟨he, hp, ho⟩
  | true =>
    rw [instrEffect_read hr]
    obtain ⟨g, n, e⟩ := readEffect_frame i.rt s
    rw [e]
    exact ⟨he, hp, ho⟩

/-- The five fields of a word put together are the word (10_state.md R23). -/
theorem fields_append (x : Word) :
    x.extractLsb' 7 25 ++ x.extractLsb' 5 2 ++ x.extractLsb' 2 3 ++ x.extractLsb' 1 1 ++ x.extractLsb' 0 1 = x := by
  iterate 4 rw [BitVec.extractLsb'_append_extractLsb'_eq_extractLsb' (by rfl)]
  ext
  simp

theorem chosenValue_mem (s : State) : chosenValue s ∈ usableValues s := by
  have hl : Config.freeChoice s.draws % (usableValues s).length < (usableValues s).length :=
    Nat.mod_lt _ (by simp [usableValues])
  unfold chosenValue
  rw [List.getD_eq_getElem _ _ hl]
  exact List.getElem_mem hl

theorem chosenValue_of_held_nil {s : State} (h : s.held = []) : chosenValue s = s.trfcr := by
  have := chosenValue_mem s
  simpa [usableValues, h] using this

/-- Everything a reset does. -/
theorem warmReset_cases (s : State) :
    (trfcrPresent s.cfg = true ∧
        warmReset s = { s with trfcr := resetTrfcr s.cfg s.trfcr s.draws, held := [], draws := s.draws + 1 }) ∨
      (trfcrPresent s.cfg = false ∧ warmReset s = s) := by
  unfold warmReset
  cases h : trfcrPresent s.cfg with
  | true => exact .inl ⟨rfl, by simp [countDraw]⟩
  | false => exact .inr ⟨rfl, by simp⟩

/-- Everything a write through TRFCR_EL1 does. -/
theorem writeTrfcrEl1_cases (s : State) (v : Word) :
    (trfcrPresent s.cfg = true ∧ writeTrfcrEl1 s v = writeTrfcr s v) ∨
      (trfcrPresent s.cfg = false ∧ writeTrfcrEl1 s v = s) := by
  unfold writeTrfcrEl1
  cases h : trfcrPresent s.cfg with
  | true => exact .inl ⟨rfl, by simp⟩
  | false => exact .inr ⟨rfl, by simp⟩

/-- No event changes a static parameter. -/
theorem applyEvent_cfg (e : Event) (s : State) : (applyEvent e s).cfg = s.cfg := by
  cases e with
  | warmReset => obtain ⟨-, h⟩ | ⟨-, h⟩ := warmReset_cases s <;> simp [applyEvent, h]
  | coldReset => obtain ⟨-, h⟩ | ⟨-, h⟩ := warmReset_cases s <;> simp [applyEvent, coldReset, h]
  | writeTrfcrEl1 v => obtain ⟨-, h⟩ | ⟨-, h⟩ := writeTrfcrEl1_cases s v <;> simp [applyEvent, h]
  | _ => rfl

/-- What one event does to the earlier values that stay usable: nothing, or it empties them, or it adds the value the
register held. -/
theorem applyEvent_held (e : Event) (s : State) :
    (applyEvent e s).held = s.held ∨
      ((applyEvent e s).held = [] ∧ (e = .contextSync ∨ e = .warmReset ∨ e = .coldReset)) ∨
      ((applyEvent e s).held = s.held ++ [s.trfcr] ∧ trfcrPresent s.cfg = true ∧ ∃ v, e = .writeTrfcrEl1 v) := by
  cases e with
  | warmReset => obtain ⟨-, h⟩ | ⟨-, h⟩ := warmReset_cases s <;> simp [applyEvent, h]
  | coldReset => obtain ⟨-, h⟩ | ⟨-, h⟩ := warmReset_cases s <;> simp [applyEvent, coldReset, h]
  | contextSync => exact .inr (.inl ⟨rfl, .inl rfl⟩)
  | writeTrfcrEl1 v => obtain ⟨hp, h⟩ | ⟨-, h⟩ := writeTrfcrEl1_cases s v <;> simp [applyEvent, *]
  | _ => exact .inl rfl

/-- What one instruction that completes does to them: a read nothing, a write adds the value the register held. -/
theorem instrEffect_held (i : Instr) (s : State) :
    (instrEffect i s).held = if i.isRead then s.held else s.held ++ [s.trfcr] := by
  cases hr : i.isRead with
  | true =>
    rw [instrEffect_read hr]
    obtain ⟨g, n, e⟩ := readEffect_frame i.rt s
    rw [e]
    rfl
  | false =>
    rw [instrEffect_write hr]
    rfl

/-- Everything one step can do when it answers a next state. -/
theorem step_next {s t : State} (h : step s = .next t) :
    (s.inputs = [] ∧ t = s) ∨
      (∃ e rest, s.inputs = .event e :: rest ∧ t = applyEvent e { s with inputs := rest }) ∨
      (∃ w rest i, s.inputs = .word w :: rest ∧ decode s.issue.iset w = .instr i ∧
        exec i { s with inputs := rest } = .next t) := by
  unfold step fetch at h
  cases hi : s.inputs with
  | nil => exact .inl ⟨rfl, by simpa [hi] using h.symm⟩
  | cons x rest =>
    cases x with
    | event e => exact .inr (.inl ⟨e, rest, rfl, by simpa [hi] using h.symm⟩)
    | word w =>
      refine .inr (.inr ?_)
      cases hd : decode s.issue.iset w with
      | instr i => exact ⟨w, rest, i, rfl, hd, by simpa [hi, hd] using h⟩
      | refused r => simp [hi, hd] at h

end Sys2Proof.Machine
end

