-- ==== Sys2Proof/Laws/PerInstr.lean ====
section
/-! SUPPORT. Facts about every instruction as syntax, one lemma per constructor. -/

/-- The encoding of every instruction names TRFCR (30_encoding.md R72) and carries its own direction, register number
and head field (R76). -/
def Sys2Proof.Laws.NamesTrfcr.Statement (i : Sys2Proof.Instr) : Prop :=
  Sys2Proof.namesTrfcr (Sys2Proof.encode i) = true ∧
    Sys2Proof.directionField (Sys2Proof.encode i) = BitVec.ofBool i.isRead ∧
    Sys2Proof.rtField (Sys2Proof.encode i) = i.rt ∧
    Sys2Proof.condField (Sys2Proof.encode i) = Sys2Proof.headField i

namespace Sys2Proof.Laws.NamesTrfcr

/-- The fields of a word laid out as `encode` lays it out. -/
theorem fields_of_layout (h rt : BitVec 4) (d : Bool) :
    let w : Word := h ++ 0b1110#4 ++ 0b000#3 ++ BitVec.ofBool d ++ 0b0001#4 ++ rt ++ 0b1111#4 ++ 0b001#3 ++ 1#1 ++ 0b0010#4
    namesTrfcr w = true ∧ directionField w = BitVec.ofBool d ∧ rtField w = rt ∧ condField w = h := by
  revert h rt d
  decide

theorem mrcTrfcrA32 (cond : Cond) (rt : RegNum) : Statement (.mrcTrfcrA32 cond rt) :=
  fields_of_layout (condCode cond) rt true

theorem mcrTrfcrA32 (cond : Cond) (rt : RegNum) : Statement (.mcrTrfcrA32 cond rt) :=
  fields_of_layout (condCode cond) rt false

theorem mrcTrfcrT32 (rt : RegNum) : Statement (.mrcTrfcrT32 rt) :=
  fields_of_layout 0b1110#4 rt true

theorem mcrTrfcrT32 (rt : RegNum) : Statement (.mcrTrfcrT32 rt) :=
  fields_of_layout 0b1110#4 rt false

end Sys2Proof.Laws.NamesTrfcr
end

