-- ==== Sys2Proof/Tests/Slice0.lean ====
section
/-! SUPPORT. The model's own tests: expected results are from 95_test_vectors.md and the rules' worked examples; and a
witness for the hypotheses of every statement. -/

namespace Sys2Proof.Tests

open Sys2Proof Sys2Proof.Machine

/-! ## Well-formedness: each ill-formed term is refused (30_encoding.md R80) -/

theorem test_wellFormed_a32_rt15 : (Instr.mrcTrfcrA32 .al 15#4).wellFormed = false := by decide
theorem test_wellFormed_a32_rt13 : (Instr.mcrTrfcrA32 .ne 13#4).wellFormed = true := by decide
theorem test_wellFormed_t32_rt13 : (Instr.mcrTrfcrT32 13#4).wellFormed = false := by decide
theorem test_wellFormed_t32_rt15 : (Instr.mrcTrfcrT32 15#4).wellFormed = false := by decide

/-! ## Decoding: words written out from 30_encoding.md R76, R77: cond 1110 opc1 L CRn Rt coproc opc2 1 CRm -/

theorem test_decode_mrcA32 :
    decode .a32 0b1010_1110_000_1_0001_0011_1111_001_1_0010#32 = .instr (.mrcTrfcrA32 .ge 3#4) := by decide
theorem test_decode_mcrA32 :
    decode .a32 0b0000_1110_000_0_0001_1101_1111_001_1_0010#32 = .instr (.mcrTrfcrA32 .eq 13#4) := by decide
theorem test_decode_mrcT32 :
    decode .t32 0b1110_1110_000_1_0001_1110_1111_001_1_0010#32 = .instr (.mrcTrfcrT32 14#4) := by decide
theorem test_decode_mcrT32 :
    decode .t32 0b1110_1110_000_0_0001_0111_1111_001_1_0010#32 = .instr (.mcrTrfcrT32 7#4) := by decide

/-- 95_test_vectors.md section 2.8, "Words that are not TRFCR accesses". -/
theorem test_decode_neighbours :
    ([0xEE110F12, 0xEE110F52, 0xEE110F31, 0xEE110F33, 0xEE120F32, 0xEE100F32, 0xEE1F0F32, 0xEE310F32, 0xEE110E32,
      0xEE110F22, 0xEC110F32, 0xFE110F32] : List Word).all (fun w =>
        decode .a32 w == .refused (.notThisHardware w) && decode .t32 w == .refused (.notThisHardware w)) = true := by
  decide

/-- 95_test_vectors.md section 2.8, "Words that match a row but are refused for their register number". -/
theorem test_decode_registers :
    ([(.a32, 0xEE11FF32, 15), (.a32, 0xEE01FF32, 15), (.t32, 0xEE11FF32, 15), (.t32, 0xEE01FF32, 15),
      (.t32, 0xEE11DF32, 13), (.t32, 0xEE01DF32, 13)] : List (InstrSet × Word × RegNum)).all (fun r =>
        decode r.1 r.2.1 == .refused (.registerNotAdmitted r.2.2)) = true := by decide

/-! ## The access check: the vectors A1 to A44 of 95_test_vectors.md section 2.1 -/

/-- The parameters and inputs of a row: the fourteen columns Mon, Halted, HaveEL3, SDD, SDDprio, EL3is32, M3, SD, EL2En,
EL2is32, H2, H, M2, HD of the table, as the binary digits of `n` from the left. -/
def vectorCheck (el : ExceptionLevel) (n : BitVec 14) : AccessOutcome :=
  accessCheck { configAtReset with haveEl3 := n.getMsbD 2, sddPriority := n.getMsbD 4 }
    { Ctx.atReset with
      el := el, mIsMonitor := n.getMsbD 0, halted := n.getMsbD 1, edscrSdd := .ofBool (n.getMsbD 3)
      el3IsAArch32 := n.getMsbD 5, mdcrEl3Ttrf := .ofBool (n.getMsbD 6), sdcrTtrf := .ofBool (n.getMsbD 7)
      el2Enabled := n.getMsbD 8, el2IsAArch32 := n.getMsbD 9, hstrEl2T1 := .ofBool (n.getMsbD 10)
      hstrT1 := .ofBool (n.getMsbD 11), mdcrEl2Ttrf := .ofBool (n.getMsbD 12), hdcrTtrf := .ofBool (n.getMsbD 13) }

theorem test_check_el0_A1_to_A2 :
    ([(0b00000000000000, .undefined), (0b00100010110101, .undefined)] : List (BitVec 14 × AccessOutcome)).all
      (fun r => vectorCheck .el0 r.1 == r.2) = true := by decide

theorem test_check_el1_A3_to_A27 :
    ([(0b00000000000000, .access), (0b00000000101000, .trapEL2A64 3), (0b00000000001111, .access), (0b00000000110100, .trapHyp 3),
    (0b00000000100010, .trapEL2A64 3), (0b00000000110001, .trapHyp 3), (0b00000000111010, .access), (0b00000000100101, .access),
    (0b00100010000000, .trapEL3A64 3), (0b00000011000000, .access), (0b00100101000000, .trapMonitor), (0b00100110000000, .access),
    (0b00100001000000, .access), (0b10100101000000, .access), (0b01110010000000, .undefined), (0b01100010000000, .trapEL3A64 3),
    (0b00110010000000, .trapEL3A64 3), (0b01110101000000, .undefined), (0b00100010100010, .trapEL2A64 3), (0b01110010101000, .trapEL2A64 3),
    (0b01111010101000, .undefined), (0b01110101110001, .trapHyp 3), (0b01111101110001, .undefined), (0b11111101110001, .trapHyp 3),
    (0b01111000101000, .trapEL2A64 3)] : List (BitVec 14 × AccessOutcome)).all
      (fun r => vectorCheck .el1 r.1 == r.2) = true := by decide

theorem test_check_el2_A28_to_A38 :
    ([(0b00000000000000, .access), (0b00000000101111, .access), (0b00100010000000, .trapEL3A64 3), (0b00100101000000, .trapMonitor),
    (0b10100101000000, .trapMonitor), (0b01110010000000, .undefined), (0b01111010000000, .undefined), (0b01110101000000, .undefined),
    (0b01111101000000, .undefined), (0b01011011000000, .access), (0b01100010000000, .trapEL3A64 3)] : List (BitVec 14 × AccessOutcome)).all
      (fun r => vectorCheck .el2 r.1 == r.2) = true := by decide

theorem test_check_el3_A39_to_A44 :
    ([(0b00000000000000, .access), (0b00000001000000, .trapMonitor), (0b10000001000000, .access), (0b00100010000000, .access),
    (0b01111101000000, .trapMonitor), (0b10000000101111, .access)] : List (BitVec 14 × AccessOutcome)).all
      (fun r => vectorCheck .el3 r.1 == r.2) = true := by decide

/-! ## The trace verdict and the timebase: vectors V1 to V18, K1 to K12 and S1 to S17 of sections 2.6 and 2.7 -/

/-- Columns present, SHTE, EL2En, TGE, PL1, E1TRE, E0TRE from the left. -/
def vectorVerdict (n : BitVec 7) (el : ExceptionLevel) : TraceVerdict :=
  traceVerdict { configAtReset with featTrf := n.getMsbD 0 }
    { Ctx.atReset with
      el := el, selfHostedTraceEnabled := n.getMsbD 1, el2Enabled := n.getMsbD 2, hcrTge := .ofBool (n.getMsbD 3)
      inPl1Mode := n.getMsbD 4 }
    { Trfcr.atReset with e1tre := .ofBool (n.getMsbD 5), e0tre := .ofBool (n.getMsbD 6) }

theorem test_verdict_V1_to_V18 :
    ([(0b0100011, .el0, .noSay), (0b1000000, .el0, .noSay), (0b1100000, .el0, .prohibited),
      (0b1100001, .el0, .allowed), (0b1111000, .el0, .noSay), (0b1101000, .el0, .prohibited),
      (0b1110001, .el0, .allowed), (0b1100101, .el1, .prohibited), (0b1100110, .el1, .allowed),
      (0b1111100, .el1, .prohibited), (0b1100100, .el3, .prohibited), (0b1110011, .el2, .noSay),
      (0b1100000, .el1, .noSay), (0b1100101, .el0, .allowed), (0b1100010, .el0, .prohibited),
      (0b1000111, .el1, .noSay), (0b1100000, .el0, .prohibited), (0b1100100, .el1, .prohibited)] :
      List (BitVec 7 × ExceptionLevel × TraceVerdict)).all (fun r => vectorVerdict r.1 r.2.1 == r.2.2) = true := by
  decide

/-- Columns present, SHTE, FEAT_ECV from the left, then HTS and TS. -/
def vectorChoice (n : BitVec 3) (hts : BitVec 2) (ts : TsField) : TimebaseChoice :=
  timebaseChoice { configAtReset with featTrf := n.getMsbD 0, featEcv := n.getMsbD 2 }
    { Ctx.atReset with selfHostedTraceEnabled := n.getMsbD 1, htrfcrTs := hts } { Trfcr.atReset with ts := ts }

theorem test_choice_K1_to_K12 :
    ([(0b100, 0b00, .known 0b11, .noSay), (0b110, 0b01, .known 0b11, .noSay), (0b110, 0b00, .known 0b01, .virtualTime),
      (0b110, 0b00, .known 0b11, .physical), (0b111, 0b00, .known 0b10, .guestPhysical), (0b110, 0b00, .known 0b10, .unconstrained),
      (0b111, 0b00, .known 0b00, .unconstrained), (0b111, 0b00, .unknown, .unconstrained), (0b101, 0b00, .unknown, .noSay),
      (0b011, 0b00, .unknown, .noSay), (0b110, 0b11, .known 0b00, .noSay), (0b111, 0b10, .known 0b01, .noSay)] :
      List (BitVec 3 × BitVec 2 × TsField × TimebaseChoice)).all
      (fun r => vectorChoice r.1 r.2.1 r.2.2.1 == r.2.2.2) = true := by
  decide

/-- Columns EL2Enabled, EL2 in AArch32, ECV, ECVEn, E2H, TGE2 from the left, then Phys, CNTVOFF, CNTPOFF_EL2. -/
def vectorCtx (n : BitVec 6) (phys voff poff : Count) : Ctx :=
  { Ctx.atReset with
    el2Enabled := n.getMsbD 0, el2IsAArch32 := n.getMsbD 1, cnthctlEl2Ecv := .ofBool (n.getMsbD 2)
    scrEl3EcvEn := .ofBool (n.getMsbD 3), hcrEl2E2h := .ofBool (n.getMsbD 4), hcrEl2Tge := .ofBool (n.getMsbD 5)
    physCount := phys, cntvoff := voff, cntpoffEl2 := poff }

theorem test_stamp_S1_to_S17 :
    ([(.virtualTime, 0b001100, 0x1000, 0x400, 0x800, false, 0xC00),
      (.virtualTime, 0b001100, 0x1000, 0x2000, 0x800, false, 0xFFFFFFFFFFFFF000),
      (.physical, 0b001100, 0x1000, 0x400, 0x800, false, 0x1000),
      (.guestPhysical, 0b001100, 0x1000, 0x400, 0x800, false, 0x800),
      (.guestPhysical, 0b000100, 0x1000, 0x400, 0x800, true, 0x1000),
      (.guestPhysical, 0b001000, 0x1000, 0x400, 0x800, true, 0x1000),
      (.guestPhysical, 0b001111, 0x1000, 0x400, 0x800, true, 0x1000),
      (.guestPhysical, 0b001110, 0x1000, 0x400, 0x800, false, 0x800),
      (.guestPhysical, 0b001101, 0x1000, 0x400, 0x800, false, 0x800),
      (.guestPhysical, 0b111100, 0x1000, 0x400, 0x800, true, 0x1000),
      (.guestPhysical, 0b011100, 0x1000, 0x400, 0x800, false, 0x800),
      (.guestPhysical, 0b001100, 0x0, 0x400, 0x1, false, 0xFFFFFFFFFFFFFFFF),
      (.virtualTime, 0b001100, 0x123456789ABCDEF0, 0xFEDCBA987654321, 0x800, false, 0x2468ACF13579BCF),
      (.virtualTime, 0b001100, 0xFFFFFFFFFFFFFFFF, 0xFFFFFFFFFFFFFFFF, 0x800, false, 0x0),
      (.virtualTime, 0b001100, 0x8000000000000000, 0x1, 0x800, false, 0x7FFFFFFFFFFFFFFF),
      (.virtualTime, 0b110011, 0x1000, 0x400, 0x800, true, 0xC00),
      (.physical, 0b110011, 0x1000, 0x400, 0x800, true, 0x1000)] :
      List (TimebaseChoice × BitVec 6 × Count × Count × Count × Bool × Count)).all
      (fun r => physOffsetZero (vectorCtx r.2.1 r.2.2.1 r.2.2.2.1 r.2.2.2.2.1) == r.2.2.2.2.2.1
        && tracedTimestamp (vectorCtx r.2.1 r.2.2.1 r.2.2.2.1 r.2.2.2.2.1) 0 r.1 == some r.2.2.2.2.2.2) = true := by
  decide

/-! ## The instructions -/

/-- The outcome is a next state that passes the check. -/
def nextHas (o : Host.Outcome State Fault Refusal) (p : State → Bool) : Bool :=
  match o with
  | .next t => p t
  | .fault _ => false
  | .refused _ => false

/-- The outcome is this fault. -/
def faultIs (o : Host.Outcome State Fault Refusal) (f : Fault) : Bool :=
  match o with
  | .next _ => false
  | .fault g => g == f
  | .refused _ => false

/-- The outcome is this refusal. -/
def refusalIs (o : Host.Outcome State Fault Refusal) (r : Refusal) : Bool :=
  match o with
  | .next _ => false
  | .fault _ => false
  | .refused q => q == r

/-- EL1, everything else 0 (vector A3), with a TRFCR value and one general register set. -/
def start (ts : TsField) (e1 e0 : BitVec 1) (t : RegNum) (v : Word) : State :=
  writeGpr { State.reset with trfcr := { Trfcr.atReset with ts := ts, e1tre := e1, e0tre := e0 } } t v

/-- The same at another level. -/
def startAt (el : ExceptionLevel) (ts : TsField) (t : RegNum) (v : Word) : State :=
  { start ts 0 1 t v with ctx := { Ctx.atReset with el := el } }

/-- 40_sysreg_access.md R100, worked example. -/
theorem test_mrcA32_worked_example :
    nextHas (exec (.mrcTrfcrA32 .al 2) (start (.known 0b11) 1 0 2 0))
      (fun t => readGpr t 2 == 0x62#32 && t.pc == 4#32) = true := by decide

/-- 95_test_vectors.md P4: the read at EL0 is Undefined although a trap control is set. -/
theorem test_mrcA32_el0_undefined :
    faultIs (exec (.mrcTrfcrA32 .al 0) (startAt .el0 (.known 0b11) 0 0x12345678)) .undefined = true := by decide

/-- 95_test_vectors.md section 2.4 W4, RES0_STORAGE FALSE: fields of 0xDEADBEEF, source unchanged. -/
theorem test_mcrA32_W4 :
    nextHas (exec (.mcrTrfcrA32 .al 0) (start .unknown 0 0 0 0xDEADBEEF))
      (fun t => t.trfcr == { resHi := 0, ts := .known 0b11, resLo := 0, e1tre := 1, e0tre := 1 }
        && readGpr t 0 == 0xDEADBEEF#32) = true := by decide

/-- 95_test_vectors.md P3, vector A8: a write at EL1 under HDCR.TTRF is trapped to Hyp mode. -/
theorem test_mcrA32_P3 :
    faultIs (exec (.mcrTrfcrA32 .al 0)
      { start (.known 0b01) 0 1 0 0x63 with
        ctx := { Ctx.atReset with el2Enabled := true, el2IsAArch32 := true, hdcrTtrf := 1 } }) (.trapHyp 3) = true := by
  decide

/-- 95_test_vectors.md section 2.3 B7 read back at EL3 (vector A39), T32. -/
theorem test_mrcT32_el3 :
    nextHas (exec (.mrcTrfcrT32 14) (startAt .el3 (.known 0b01) 14 0xFFFFFFFF))
      (fun t => readGpr t 14 == 0x21#32) = true := by decide

/-- 30_encoding.md R75, R77: a T32 access in an IT block whose condition fails is refused by name. -/
theorem test_mrcT32_condition :
    refusalIs (exec (.mrcTrfcrT32 0)
      { State.reset with issue := { iset := .t32, itCond := .eq, condsHolding := [.ne] } }) .conditionFailed = true := by
  decide

/-- 95_test_vectors.md P5 at EL2 (vector A28), RES0_STORAGE TRUE: ones stored in the reserved bits. -/
theorem test_mcrT32_P5 :
    nextHas (exec (.mcrTrfcrT32 0)
      { startAt .el2 .unknown 0 0xFFFFFFFF with cfg := { configAtReset with res0Storage := true } })
      (fun t => t.trfcr == { resHi := 0x1FFFFFF, ts := .known 0b11, resLo := 0b111, e1tre := 1, e0tre := 1 }) = true := by
  decide

/-- 95_test_vectors.md section 2.2 Q6: absent register under HSTR_EL2.T1, no outcome. -/
theorem test_mcrT32_Q6 :
    refusalIs (exec (.mcrTrfcrT32 0)
      { State.reset with
        cfg := { configAtReset with featTrf := false }
        ctx := { Ctx.atReset with el2Enabled := true, hstrEl2T1 := 1 } }) .absentUnderT1Trap = true := by decide

/-! ## The step and the events -/

/-- The first step after reset runs a table word placed for it. -/
theorem test_step_runs_placed_word :
    nextHas (step (State.reset.withFetchWord 32 0x0E012F32))
      (fun t => t.trfcr.ts == .known 0 && t.pc == 4#32 && t.inputs == []) = true := by decide

/-- 95_test_vectors.md section 2.9: X4 leaves three values usable, X5 one. -/
theorem test_sync_X4_X5 :
    (usableValues (writeTrfcr (writeTrfcr (start (.known 0) 0 0 0 0) 0x61) 0x20)).map (fun r => (r.ts, r.e0tre))
        = [(.known 0b00, 0), (.known 0b11, 1), (.known 0b01, 0)] ∧
      (usableValues (contextSync (writeTrfcr (writeTrfcr (start (.known 0) 0 0 0 0) 0x61) 0x20))).length = 1 := by
  decide

/-- 95_test_vectors.md section 2.5 Z1. -/
theorem test_warmReset_Z1 :
    (warmReset (start (.known 0b11) 1 1 0 0)).trfcr
      = { resHi := 0, ts := .unknown, resLo := 0, e1tre := 0, e0tre := 0 } := by decide

/-! ## Witnesses: a state and operands that meet the hypotheses of each statement -/

/-- A state every privileged access of which reaches the register (vector A3), TS known. -/
def sKnown : State := start (.known 0b11) 1 0 2 0xDEADBEEF

/-- The same with TS UNKNOWN, as after a reset. -/
def sUnknown : State := start .unknown 0 0 2 0xDEADBEEF

/-- A state with the register absent. -/
def sAbsent : State := { State.reset with cfg := { configAtReset with featTrf := false } }

/-- The state with these items in its queue. -/
def withInputs (s : State) (q : List Input) : State := { s with inputs := q }

/-- Self-hosted trace on, at a level. -/
def traceCtx (el : ExceptionLevel) (pl1 : Bool) : Ctx :=
  { Ctx.atReset with el := el, inPl1Mode := pl1, selfHostedTraceEnabled := true }

theorem witness_DecodeOfEncodeIsTheInstruction :
    (Instr.mrcTrfcrA32 .al 14#4).wellFormed = true ∧ (Instr.mcrTrfcrA32 .eq 0#4).wellFormed = true ∧
      (Instr.mrcTrfcrT32 14#4).wellFormed = true ∧ (Instr.mcrTrfcrT32 12#4).wellFormed = true := by decide

theorem witness_DecodedWordIsTheEncodedWord :
    decode .a32 0xDE01EF32#32 = .instr (.mcrTrfcrA32 .le 14#4) ∧
      decode .t32 0xEE110F32#32 = .instr (.mrcTrfcrT32 0#4) := by decide

theorem witness_DecoderAgreesWithMatchAndMask :
    decode .a32 0x0E110F32#32 = .instr (.mrcTrfcrA32 .eq 0#4) ∧
      decode .a32 0xEE01EF32#32 = .instr (.mcrTrfcrA32 .al 14#4) ∧
      decode .t32 0xEE11EF32#32 = .instr (.mrcTrfcrT32 14#4) ∧
      decode .t32 0xEE01CF32#32 = .instr (.mcrTrfcrT32 12#4) := by decide

/-- The state after reset in T32. -/
def sT32 : State := { State.reset with issue := { Issue.atReset with iset := .t32 } }

theorem witness_NeighbouringEncodingIsRefusedByName :
    (withInputs State.reset [.word 0xFE110F32]).inputs = .word 0xFE110F32 :: [] ∧
      (0xEE110E32#32).extractLsb' 8 4 ≠ 0b1111#4 ∧ (0xEE310F32#32).extractLsb' 21 3 ≠ 0b000#3 ∧
      (0xEE100F32#32).extractLsb' 16 4 ≠ 0b0001#4 ∧ (0xEE110F33#32).extractLsb' 0 4 ≠ 0b0010#4 ∧
      (0xEE110F12#32).extractLsb' 5 3 ≠ 0b001#3 ∧ (0xEC110F32#32).extractLsb' 24 4 ≠ 0b1110#4 ∧
      (0xEE110F22#32).extractLsb' 4 1 ≠ 1#1 ∧
      (State.reset.issue.iset = .a32 ∧ (0xFE110F32#32).extractLsb' 28 4 = 0b1111#4) ∧
      (sT32.issue.iset = .t32 ∧ (0xDE110F32#32).extractLsb' 28 4 ≠ 0b1110#4) := by decide

theorem witness_StepRunsTheDecodedInstruction :
    (withInputs sKnown [.word 0xEE112F32]).inputs = .word 0xEE112F32 :: [] ∧
      decode sKnown.issue.iset 0xEE112F32 = .instr (.mrcTrfcrA32 .al 2) ∧
      decode sKnown.issue.iset (BitVec.ofNat 32 (0xEE112F32 % 2 ^ 32)) = .instr (.mrcTrfcrA32 .al 2) := by decide

theorem witness_StepAppliesTheNextEvent :
    (withInputs sKnown [.event .warmReset, .event .contextSync]).inputs
        = .event .warmReset :: [.event .contextSync] ∧ State.reset.inputs = [] := by decide

theorem witness_EnvironmentEventsSetExactlyWhatTheyCarry :
    (withInputs sKnown [.event (.setCtx (traceCtx .el0 false))]).inputs = .event (.setCtx (traceCtx .el0 false)) :: [] ∧
      (withInputs sKnown [.event (.setIssue sT32.issue)]).inputs = .event (.setIssue sT32.issue) :: [] ∧
      (withInputs sKnown [.event (.setPc 8)]).inputs = .event (.setPc 8) :: [] ∧
      (withInputs sKnown [.event (.setGpr 15 7), .word 0]).inputs = .event (.setGpr 15 7) :: [.word 0] := by decide

/-- A state in which EQ and the IT condition fail. -/
def sFailing : State := { sKnown with issue := { iset := .t32, itCond := .eq, condsHolding := [.ne] } }

theorem witness_FailingConditionIsRefusedByName :
    (rtAdmitted .t32 2 = true ∧ conditionOf sFailing.issue (.mrcTrfcrT32 2) ≠ .al ∧
      conditionOf sFailing.issue (.mrcTrfcrT32 2) ∉ sFailing.issue.condsHolding) ∧
    (rtAdmitted .a32 14 = true ∧ conditionOf sFailing.issue (.mcrTrfcrA32 .eq 14) ≠ .al ∧
      conditionOf sFailing.issue (.mcrTrfcrA32 .eq 14) ∉ sFailing.issue.condsHolding) ∧
    conditionOf sFailing.issue (.mcrTrfcrA32 .al 14) = .al := by decide

theorem witness_AbsentRegisterAccessIsUndefined :
    Executes (.mrcTrfcrA32 .al 0) sAbsent ∧ (sAbsent.cfg.aarch32AnyEl = false ∨ sAbsent.cfg.featTrf = false) ∧
      ¬ (sAbsent.ctx.el = .el1 ∧ sAbsent.ctx.el2Enabled = true ∧
        ((sAbsent.ctx.el2IsAArch32 = false ∧ sAbsent.ctx.hstrEl2T1 = 1#1) ∨
          (sAbsent.ctx.el2IsAArch32 = true ∧ sAbsent.ctx.hstrT1 = 1#1))) := by decide

/-- Vector Q7: the register absent at EL1 under HSTR.T1. -/
def sAbsentT1 : State :=
  { sAbsent with ctx := { Ctx.atReset with el2Enabled := true, el2IsAArch32 := true, hstrT1 := 1 } }

theorem witness_AbsentRegisterUnderT1ControlIsRefused :
    Executes (.mcrTrfcrT32 0) sAbsentT1 ∧ (sAbsentT1.cfg.aarch32AnyEl = false ∨ sAbsentT1.cfg.featTrf = false) ∧
      (sAbsentT1.ctx.el = .el1 ∧ sAbsentT1.ctx.el2Enabled = true ∧
        ((sAbsentT1.ctx.el2IsAArch32 = false ∧ sAbsentT1.ctx.hstrEl2T1 = 1#1) ∨
          (sAbsentT1.ctx.el2IsAArch32 = true ∧ sAbsentT1.ctx.hstrT1 = 1#1))) := by decide

theorem witness_El0AccessIsUndefined :
    Executes (.mrcTrfcrA32 .al 0) (startAt .el0 .unknown 0 0) ∧ (startAt .el0 .unknown 0 0).ctx.el = .el0 := by decide

theorem witness_El1OutcomeIsThatOfTheFirstArm :
    Ctx.atReset.el = .el1 ∧
      sAbsentT1.ctx.el = .el1 ∧ sAbsentT1.ctx.el2Enabled = true ∧ sAbsentT1.ctx.el2IsAArch32 = true ∧
        sAbsentT1.ctx.hstrT1 = 1#1 ∧ sAbsentT1.cfg.sddPriority = false := by decide

theorem witness_El2OutcomeIsThatOfTheFirstArm : (traceCtx .el2 false).el = .el2 := by decide

theorem witness_El3OutcomeIsThatOfTheFirstArm :
    ({ Ctx.atReset with el := .el3, sdcrTtrf := 1 } : Ctx).mIsMonitor = false ∧
      ({ Ctx.atReset with el := .el3, sdcrTtrf := 1 } : Ctx).sdcrTtrf = 1#1 ∧
      ¬ ((traceCtx .el3 true).mIsMonitor = false ∧ (traceCtx .el3 true).sdcrTtrf = 1#1) ∧
      (traceCtx .el3 true).el = .el3 := by decide

/-- Two contexts at EL2 that differ in every EL2 control: the hypotheses of the statement hold of them. -/
theorem witness_CheckReadsOnlyTheListedInputs :
    let c := traceCtx .el2 false
    let c' : Ctx := { c with hstrT1 := 1, hstrEl2T1 := 1, mdcrEl2Ttrf := 1, hdcrTtrf := 1, mIsMonitor := true }
    c'.el = c.el ∧ c.el ≠ .el1 ∧ c.el ≠ .el3 ∧ c'.halted = c.halted ∧ c'.edscrSdd = c.edscrSdd ∧
      c'.el3IsAArch32 = c.el3IsAArch32 ∧ c'.mdcrEl3Ttrf = c.mdcrEl3Ttrf ∧ c'.sdcrTtrf = c.sdcrTtrf := by decide

/-- Each trap arises: vectors A4, A6, A11, A13, A40. -/
theorem witness_EachTrapComesOnlyFromItsControls :
    vectorCheck .el1 0b00000000101000 = .trapEL2A64 0x03#8 ∧ vectorCheck .el1 0b00000000110100 = .trapHyp 0x03#8 ∧
      vectorCheck .el1 0b00100010000000 = .trapEL3A64 0x03#8 ∧ vectorCheck .el1 0b00100101000000 = .trapMonitor ∧
      vectorCheck .el3 0b00000001000000 = .trapMonitor := by decide

theorem witness_EveryOutcomeEndsTheAccessUnderItsLabel :
    Executes (.mcrTrfcrT32 0) sKnown ∧ trfcrPresent sKnown.cfg = true ∧
      accessCheck sKnown.cfg sKnown.ctx = .access ∧
      Executes (.mrcTrfcrA32 .eq 14) (startAt .el0 .unknown 0 0) ∧
      accessCheck (startAt .el0 .unknown 0 0).cfg (startAt .el0 .unknown 0 0).ctx = .undefined := by decide

/-- Monitor mode at EL3 with SDCR.TTRF set. -/
def sMonitor : State := { sKnown with ctx := { Ctx.atReset with el := .el3, mIsMonitor := true, sdcrTtrf := 1 } }

/-- EL1 with EL2 enabled and EL3 present, both in AArch32 or both in AArch64, and every control 0: arm E1.9. -/
def sGuest (a32 : Bool) : State :=
  { sKnown with
    cfg := { configAtReset with haveEl3 := true }
    ctx := { Ctx.atReset with el2Enabled := true, el2IsAArch32 := a32, el3IsAArch32 := a32 } }

theorem witness_UntrappedPrivilegedAccessCompletes :
    (Executes (.mrcTrfcrA32 .al 2) sMonitor ∧ sMonitor.cfg.aarch32AnyEl = true ∧ sMonitor.cfg.featTrf = true ∧
      sMonitor.ctx.el = .el3 ∧ sMonitor.ctx.mIsMonitor = true) ∧
    (∀ a32 : Bool, Executes (.mcrTrfcrT32 2) (sGuest a32) ∧ (sGuest a32).cfg.aarch32AnyEl = true ∧
      (sGuest a32).cfg.featTrf = true ∧ (sGuest a32).ctx.el = .el1 ∧ (sGuest a32).cfg.haveEl3 = true ∧
      (sGuest a32).ctx.el3IsAArch32 = a32 ∧ (sGuest a32).ctx.mdcrEl3Ttrf = 0#1 ∧ (sGuest a32).ctx.sdcrTtrf = 0#1 ∧
      (sGuest a32).ctx.el2Enabled = true ∧ (sGuest a32).ctx.el2IsAArch32 = a32 ∧ (sGuest a32).ctx.hstrEl2T1 = 0#1 ∧
      (sGuest a32).ctx.mdcrEl2Ttrf = 0#1 ∧ (sGuest a32).ctx.hstrT1 = 0#1 ∧ (sGuest a32).ctx.hdcrTtrf = 0#1) := by decide

theorem witness_MrcLeavesTheRegisterValueInItsDestination :
    ((Instr.mrcTrfcrA32 .al 2).isRead = true ∧ Reaches (.mrcTrfcrA32 .al 2) sKnown) ∧
      ((Instr.mrcTrfcrT32 14).isRead = true ∧ Reaches (.mrcTrfcrT32 14) sKnown) ∧
      sKnown.trfcr.ts = .known 0b11 := by decide

theorem witness_MrcOfUnknownTimestampFieldCompletes :
    Reaches (.mrcTrfcrA32 .gt 0) sUnknown ∧ Reaches (.mrcTrfcrT32 12) sUnknown ∧ sUnknown.trfcr.ts = .unknown := by
  decide

theorem witness_McrStoresItsSourceInTheRegister :
    ((Instr.mcrTrfcrA32 .al 2).isRead = false ∧ Reaches (.mcrTrfcrA32 .al 2) sUnknown ∧
      sUnknown.cfg.res0Storage = false) ∧
    (Reaches (.mcrTrfcrT32 2) { sUnknown with cfg := { configAtReset with res0Storage := true } }) := by decide

theorem witness_ReadAfterWriteReturnsTheStoredBits :
    (Instr.mcrTrfcrA32 .al 2).isRead = false ∧ (Instr.mrcTrfcrT32 2).isRead = true ∧
      Reaches (.mcrTrfcrA32 .al 2) sUnknown ∧ Executes (.mrcTrfcrT32 2) sUnknown := by decide

theorem witness_HardwiredReservedBitsReadZero :
    sUnknown.cfg.res0Storage = false ∧ ∃ t, exec (.mrcTrfcrA32 .al 2) sUnknown = .next t :=
  ⟨by decide, _, exec_of_reaches (by decide)⟩

theorem witness_TwoReadsAgree :
    sKnown.trfcr.ts ≠ .unknown ∧ ∃ t u, exec (.mrcTrfcrA32 .al 2) sKnown = .next t ∧ exec (.mrcTrfcrT32 3) t = .next u :=
  ⟨by decide, _, _, exec_of_reaches (by decide), exec_of_reaches (reaches_after (by decide) (by decide))⟩

theorem witness_WritingBackWhatWasReadFixesIt :
    (Instr.mrcTrfcrA32 .al 2).isRead = true ∧ (Instr.mcrTrfcrA32 .al 2).isRead = false ∧
      (Instr.mcrTrfcrA32 .al 2).rt = (Instr.mrcTrfcrA32 .al 2).rt ∧ Reaches (.mrcTrfcrA32 .al 2) sUnknown ∧
      Executes (.mcrTrfcrA32 .al 2) sUnknown ∧ Executes (.mrcTrfcrA32 .al 3) sUnknown := by decide

theorem witness_AccessDoesNotDependOnIgnoreConditions : ∃ t, exec (.mcrTrfcrT32 2) sKnown = .next t :=
  ⟨_, exec_of_reaches (by decide)⟩

theorem witness_T32FormsActAsTheA32FormsWithTheirCondition : (12#4 : RegNum) ≠ 13#4 ∧ (15#4 : RegNum) ≠ 13#4 := by
  decide

theorem witness_InstructionsLeaveTheirFrame :
    (∃ t, exec (.mrcTrfcrT32 2) sKnown = .next t) ∧ (∃ t, exec (.mcrTrfcrA32 .al 2) sKnown = .next t) :=
  ⟨⟨_, exec_of_reaches (by decide)⟩, ⟨_, exec_of_reaches (by decide)⟩⟩

theorem witness_WarmResetClearsBothTraceEnables : trfcrPresent sKnown.cfg = true ∧ sKnown.trfcr.e1tre = 1#1 := by decide

theorem witness_ResetsDoExactlyWhatTheRuleSays :
    trfcrPresent sKnown.cfg = true ∧ sKnown.cfg.res0Storage = false ∧ trfcrPresent sAbsent.cfg = false := by decide

theorem witness_TrfcrEl1WriteIsAWriteOfTheSameStorage :
    (Instr.mcrTrfcrA32 .al 2).isRead = false ∧ Reaches (.mcrTrfcrA32 .al 2) sUnknown := by decide

theorem witness_NoVerdictWithoutSelfHostedTrace : Ctx.atReset.selfHostedTraceEnabled = false := by decide

theorem witness_E0treDecidesTheVerdictAtEl0 :
    trfcrPresent configAtReset = true ∧ (traceCtx .el0 false).el = .el0 ∧
      (traceCtx .el0 false).selfHostedTraceEnabled = true ∧
      ¬ ((traceCtx .el0 false).el2Enabled = true ∧ (traceCtx .el0 false).hcrTge = 1#1) ∧
      (({ traceCtx .el0 false with el2Enabled := true, hcrTge := 1 } : Ctx).el2Enabled = true ∧
        ({ traceCtx .el0 false with el2Enabled := true, hcrTge := 1 } : Ctx).hcrTge = 1#1) ∧
      Trfcr.atReset.e0tre = 0#1 ∧ ({ Trfcr.atReset with e0tre := 1 } : Trfcr).e0tre = 1#1 := by decide

theorem witness_E1treDecidesTheVerdictInPl1Modes :
    trfcrPresent configAtReset = true ∧ (traceCtx .el3 true).el ≠ .el0 ∧
      (traceCtx .el3 true).selfHostedTraceEnabled = true ∧ (traceCtx .el3 true).inPl1Mode = true ∧
      (traceCtx .el1 false).el ≠ .el0 ∧ (traceCtx .el1 false).inPl1Mode = false ∧
      Trfcr.atReset.e1tre = 0#1 ∧ sKnown.trfcr.e1tre = 1#1 := by decide

theorem witness_TraceFunctionsReadOnlyTheirOwnField :
    (traceCtx .el0 false).el = .el0 ∧ (traceCtx .el1 true).el ≠ .el0 ∧
      ({ sKnown.trfcr with ts := .unknown, e1tre := 0, resLo := 7 } : Trfcr).e0tre = sKnown.trfcr.e0tre ∧
      ({ sKnown.trfcr with ts := .unknown, e0tre := 1, resHi := 1 } : Trfcr).e1tre = sKnown.trfcr.e1tre ∧
      ({ sKnown.trfcr with resHi := 5, resLo := 7, e0tre := 1 } : Trfcr).ts = sKnown.trfcr.ts := by decide

theorem witness_DefinedTimestampFieldSelectsItsTimebase :
    trfcrPresent configAtReset = true ∧ (traceCtx .el1 true).selfHostedTraceEnabled = true ∧
      (traceCtx .el1 true).htrfcrTs = 0b00#2 ∧ sKnown.trfcr.ts = .known 0b11#2 ∧
      ({ configAtReset with featEcv := true } : Config).featEcv = true := by decide

theorem witness_ReservedOrUnknownTimestampFieldIsUnconstrained :
    trfcrPresent configAtReset = true ∧ (traceCtx .el1 true).selfHostedTraceEnabled = true ∧
      (traceCtx .el1 true).htrfcrTs = 0b00#2 ∧ Trfcr.atReset.ts = .unknown ∧ configAtReset.featEcv = false := by decide

theorem witness_IgnoredTimestampFieldHasNoEffect :
    Ctx.atReset.selfHostedTraceEnabled = false ∧ ({ traceCtx .el1 true with htrfcrTs := 0b10 } : Ctx).htrfcrTs ≠ 0b00#2 := by
  decide

theorem witness_IgnoredOrAbsentRegisterDeterminesNoTimestamp :
    trfcrPresent sAbsent.cfg = false ∧ Ctx.atReset.selfHostedTraceEnabled = false ∧
      ({ traceCtx .el1 true with htrfcrTs := 0b01 } : Ctx).htrfcrTs ≠ 0b00#2 := by decide

/-- Self-hosted trace on and FEAT_ECV implemented, with a TS value. -/
def sTrace (ts : BitVec 2) : State :=
  { start (.known ts) 0 0 0 0 with ctx := traceCtx .el1 true, cfg := { configAtReset with featEcv := true } }

theorem witness_TracedTimestampIsTheSelectedCount :
    ∀ ts : BitVec 2, trfcrPresent (sTrace ts).cfg = true ∧ (sTrace ts).ctx.selfHostedTraceEnabled = true ∧
      (sTrace ts).ctx.htrfcrTs = 0b00#2 ∧ (sTrace ts).held = [] ∧ (sTrace ts).trfcr.ts = .known ts ∧
      (sTrace ts).cfg.featEcv = true ∧ (sTrace ts).ctx.cnthctlEl2Ecv = 0#1 := by decide

theorem witness_TracingIsProhibitedAfterAReset :
    trfcrPresent (sTrace 1).cfg = true ∧ (sTrace 1).ctx.selfHostedTraceEnabled = true ∧
      (sTrace 1).ctx.el ≠ .el0 ∧ (sTrace 1).ctx.inPl1Mode = true ∧
      ((traceCtx .el0 false).el = .el0 ∧
        ¬ ((traceCtx .el0 false).el2Enabled = true ∧ (traceCtx .el0 false).hcrTge = 1#1)) := by decide

/-- An earlier value in use, and a ContextSync, an evaluation and a read to come. -/
def sHeld : State :=
  { withInputs sKnown [.event .evalVerdict, .word 0xEE112F32] with held := [Trfcr.atReset] }

/-- A run of two steps after a ContextSync, an evaluation and an instruction that completes. -/
theorem witness_ContextSyncLeavesOnlyTheCurrentValue :
    sHeld.held ≠ [] ∧ ∃ t, RunsWithoutWrite (applyEvent .contextSync sHeld) t ∧ t.inputs = [] ∧ t.pc = sHeld.pc + 4 := by
  refine ⟨by decide, _, .more (.more (.here _) ?_ rfl) ?_ rfl, rfl, rfl⟩
  · rintro (⟨v, rest, h⟩ | ⟨w, rest, i, h, -⟩) <;> simp [sHeld, withInputs, applyEvent] at h
  · rintro (⟨v, rest, h⟩ | ⟨w, rest, i, h, hd, hr, -⟩)
    · simp [sHeld, withInputs, applyEvent] at h
    · obtain ⟨rfl, -⟩ : w = 0xEE112F32 ∧ rest = [] := by simpa [sHeld, withInputs, applyEvent, eq_comm] using h
      cases Decoded.instr.inj (hd.symm.trans (show _ = Decoded.instr (.mrcTrfcrA32 .al 2) by decide))
      cases hr

theorem witness_EveryValueHeldSinceTheSyncStaysUsable :
    trfcrPresent sKnown.cfg = true ∧
      sKnown.trfcr ∈ usableValues
        ([0x61#32, 0x20#32].foldl (fun t v => applyEvent (.writeTrfcrEl1 v) t) sKnown) := by decide

theorem witness_EveryStepKeepsTheInvariant :
    (withInputs sKnown [.event .warmReset]).Inv ∧ (withInputs sKnown [.word 0xEE012F32]).Inv ∧
      (∃ t, step (withInputs sKnown [.event .warmReset]) = .next t) ∧
      (∃ t, step (withInputs sKnown [.word 0xEE012F32]) = .next t) :=
  ⟨by decide, by decide, ⟨_, rfl⟩, ⟨_, rfl⟩⟩

theorem witness_NoStepChangesAParameter : ∃ t, step (withInputs sKnown [.event (.setCtx Ctx.atReset)]) = .next t :=
  ⟨_, rfl⟩

theorem witness_OnlyWritesAndResetsChangeTheRegister :
    ∃ t, step (withInputs sKnown [.word 0xEE012F32]) = .next t ∧ t.trfcr ≠ sKnown.trfcr :=
  ⟨_, rfl, by decide⟩

theorem witness_OnlyWritesSyncsAndResetsChangeTheEarlierValues :
    (∃ t, step { sHeld with inputs := [.word 0xEE012F32] } = .next t ∧ t.held ≠ sHeld.held ∧ t.held ≠ []) ∧
      (∃ t, step { sHeld with inputs := [.event .contextSync] } = .next t ∧ t.held = []) ∧
      (∃ t, step sHeld = .next t ∧ t.held = sHeld.held) :=
  ⟨⟨_, rfl, by decide, by decide⟩, ⟨_, rfl, rfl⟩, ⟨_, rfl, rfl⟩⟩

theorem witness_OnlyAResetMakesTheTimestampFieldUnknown :
    ∃ t, step (withInputs sKnown [.event .coldReset]) = .next t ∧ sKnown.trfcr.ts = .known 0b11 ∧
      t.trfcr.ts = .unknown :=
  ⟨_, rfl, by decide, by decide⟩

theorem witness_AbsentRegisterIsNeverReachedOrChanged :
    (sAbsent.cfg.aarch32AnyEl = false ∨ sAbsent.cfg.featTrf = false) ∧ sAbsent.Inv ∧
      ∃ t, step (withInputs sAbsent [.event (.writeTrfcrEl1 0x63)]) = .next t :=
  ⟨by decide, by decide, _, rfl⟩

theorem witness_NoWordCompletesAtEl0 :
    (withInputs (startAt .el0 .unknown 0 0) [.word 0xEE110F32]).inputs = .word 0xEE110F32 :: [] ∧
      (withInputs (startAt .el0 .unknown 0 0) [.word 0xEE110F32]).ctx.el = .el0 := by decide

theorem witness_OnlyTheEnvironmentAndReadsChangeWhatItOwns :
    (∃ t, step (withInputs sKnown [.event (.setCtx (traceCtx .el0 false))]) = .next t ∧ t.ctx ≠ sKnown.ctx) ∧
      (∃ t, step (withInputs sKnown [.word 0xEE112F32]) = .next t ∧ t.gpr ≠ sKnown.gpr) :=
  ⟨⟨_, rfl, by decide⟩, ⟨_, rfl, by decide⟩⟩

end Sys2Proof.Tests
end

section
/-! PROOFS. The machine's step as a whole (00_scope.md section 5 and section 7): the static parameters it keeps, and
what it does for each kind of item at the head of the queue. -/

namespace Sys2Proof.Machine

/-! ### The static parameters -/

@[simp] theorem instrEffect_cfg (i : Instr) (s : State) : (instrEffect i s).cfg = s.cfg := by
  cases hr : i.isRead with
  | true =>
    obtain ⟨g, n, e⟩ := readEffect_frame i.rt s
    rw [instrEffect_read hr, e]
  | false => rw [instrEffect_write hr, writeEffect, writeTrfcr_cfg]

theorem exec_next_cfg {i : Instr} {s t : State} (h : exec i s = .next t) : t.cfg = s.cfg := by
  obtain ⟨-, rfl⟩ := exec_next h
  rw [advancePc_cfg, instrEffect_cfg]

/-- Settles O50: an idle step changes nothing, and neither an event nor an instruction that completes touches `cfg`. -/
theorem noStepChangesAParameter : Obligations.NoStepChangesAParameter := by
  intro s t h
  obtain ⟨-, rfl⟩ | ⟨e, rest, -, rfl⟩ | ⟨w, rest, i, -, -, hx⟩ := step_next h
  · rfl
  · exact applyEvent_cfg e _
  · exact (exec_next_cfg hx).trans rfl

/-! ### The step for each kind of item -/

theorem step_of_inputs_nil {s : State} (h : s.inputs = []) : step s = .next s := by
  simp [step, fetch, h]

theorem step_of_inputs_event {s : State} {e : Event} {rest : List Input} (h : s.inputs = .event e :: rest) :
    step s = .next (applyEvent e { s with inputs := rest }) := by
  simp [step, fetch, h]

theorem step_of_inputs_word {s : State} {w : Word} {rest : List Input} {i : Instr} (h : s.inputs = .word w :: rest)
    (hd : decode s.issue.iset w = .instr i) : step s = exec i { s with inputs := rest } := by
  simp [step, fetch, h, hd]

/-- Placing a word changes the queue alone, so the step that takes it runs on the state it was placed in. -/
theorem step_placeWord {s : State} {w : Word} {i : Instr} (hd : decode s.issue.iset w = .instr i) :
    step (placeWord s w) = exec i s :=
  step_of_inputs_word (placeWord_inputs s w) hd

/-- Settles O7: the placed word is one more word at the head of the queue. -/
theorem stepRunsTheDecodedInstruction : Obligations.StepRunsTheDecodedInstruction := by
  intro s i
  constructor
  · intro w rest h hd
    exact step_of_inputs_word h hd
  · intro w hd
    exact step_placeWord hd

/-- Settles O8, one clause for each of the two kinds of queue without a word at its head. -/
theorem stepAppliesTheNextEvent : Obligations.StepAppliesTheNextEvent := by
  intro s
  constructor
  · intro e rest h
    exact step_of_inputs_event h
  · exact step_of_inputs_nil

end Sys2Proof.Machine
end

section
/-! PROOFS. The storage of TRFCR: what an event, an instruction and a step can do to the register and to the earlier
values in use (10_state.md sections 1, 3 and 4), and the invariant every step keeps. -/

namespace Sys2Proof.Machine

/-! ### Reserved bits and the values in use -/

theorem mem_usableValues {s : State} {r : Trfcr} : r ∈ usableValues s ↔ r ∈ s.held ∨ r = s.trfcr := by
  simp [usableValues]

theorem unpackTrfcr_reservedClear {cfg : Config} {r : Trfcr} (v : Word) (h : ReservedClear cfg r) :
    ReservedClear cfg (unpackTrfcr cfg r v) := by
  intro h0
  simpa [unpackTrfcr, h0] using h h0

theorem resetTrfcr_reservedClear {cfg : Config} {r : Trfcr} (n : Nat) (h : ReservedClear cfg r) :
    ReservedClear cfg (resetTrfcr cfg r n) := by
  intro h0
  simpa [resetTrfcr, h0] using h h0

/-- The condition R4 of 00_scope.md fails exactly when one of its two parameters is FALSE. -/
theorem trfcrPresent_eq_false_iff {cfg : Config} :
    trfcrPresent cfg = false ↔ cfg.aarch32AnyEl = false ∨ cfg.featTrf = false := by
  rw [trfcrPresent, Bool.and_eq_false_iff]

/-! ### What a step does to the storage -/

/-- What one event does to the register and to the earlier values in use: it leaves the register, with the earlier
values kept or emptied, or it resets a present register, or it writes one through TRFCR_EL1. -/
theorem applyEvent_storage (e : Event) (s : State) :
    ((applyEvent e s).trfcr = s.trfcr ∧ ((applyEvent e s).held = s.held ∨ (applyEvent e s).held = [])) ∨
      (trfcrPresent s.cfg = true ∧ (e = .warmReset ∨ e = .coldReset) ∧
        (applyEvent e s).trfcr = resetTrfcr s.cfg s.trfcr s.draws ∧ (applyEvent e s).held = []) ∨
      (trfcrPresent s.cfg = true ∧ ∃ v, e = .writeTrfcrEl1 v ∧
        (applyEvent e s).trfcr = unpackTrfcr s.cfg s.trfcr v ∧ (applyEvent e s).held = s.held ++ [s.trfcr]) := by
  cases e with
  | warmReset => obtain ⟨hp, h⟩ | ⟨-, h⟩ := warmReset_cases s <;> simp [applyEvent, *]
  | coldReset => obtain ⟨hp, h⟩ | ⟨-, h⟩ := warmReset_cases s <;> simp [applyEvent, coldReset, *]
  | contextSync => exact .inl ⟨rfl, .inr rfl⟩
  | writeTrfcrEl1 v => obtain ⟨hp, h⟩ | ⟨-, h⟩ := writeTrfcrEl1_cases s v <;> simp [applyEvent, *]
  | _ => exact .inl ⟨rfl, .inl rfl⟩

theorem instrEffect_read_trfcr {i : Instr} (s : State) (hr : i.isRead = true) :
    (instrEffect i s).trfcr = s.trfcr := by
  obtain ⟨g, n, e⟩ := readEffect_frame i.rt s
  rw [instrEffect_read hr, e]

theorem instrEffect_write_trfcr {i : Instr} (s : State) (hr : i.isRead = false) :
    (instrEffect i s).trfcr = unpackTrfcr s.cfg s.trfcr (readGpr s i.rt) := by
  rw [instrEffect_write hr, writeEffect, writeTrfcr_trfcr]

/-- What one step does to the register and to the earlier values in use, and which items of the queue do it. -/
theorem step_storage {s t : State} (h : step s = .next t) :
    (t.trfcr = s.trfcr ∧ (t.held = s.held ∨ t.held = [])) ∨
      (trfcrPresent s.cfg = true ∧
        ((∃ rest, s.inputs = .event .warmReset :: rest) ∨ (∃ rest, s.inputs = .event .coldReset :: rest)) ∧
        t.trfcr = resetTrfcr s.cfg s.trfcr s.draws ∧ t.held = []) ∨
      (trfcrPresent s.cfg = true ∧ WritesNext s ∧
        ∃ v, t.trfcr = unpackTrfcr s.cfg s.trfcr v ∧ t.held = s.held ++ [s.trfcr]) := by
  obtain ⟨-, rfl⟩ | ⟨e, rest, hi, rfl⟩ | ⟨w, rest, i, hi, hd, hx⟩ := step_next h
  · exact .inl ⟨rfl, .inl rfl⟩
  · obtain hkeep | ⟨hp, he, ht, hh⟩ | ⟨hp, v, rfl, ht, hh⟩ := applyEvent_storage e { s with inputs := rest }
    · exact .inl hkeep
    · obtain rfl | rfl := he
      · exact .inr (.inl ⟨hp, .inl ⟨rest, hi⟩, ht, hh⟩)
      · exact .inr (.inl ⟨hp, .inr ⟨rest, hi⟩, ht, hh⟩)
    · exact .inr (.inr ⟨hp, .inl ⟨v, rest, hi⟩, v, ht, hh⟩)
  · obtain ⟨⟨hexec, hp, haccess⟩, rfl⟩ := exec_next hx
    have hheld := instrEffect_held i { s with inputs := rest }
    cases hr : i.isRead with
    | true =>
      rw [hr] at hheld
      exact .inl ⟨instrEffect_read_trfcr _ hr, .inl hheld⟩
    | false =>
      rw [hr] at hheld
      have hwrites : WritesNext s := .inr ⟨w, rest, i, hi, hd, hr, hexec, hp, haccess⟩
      exact .inr (.inr ⟨hp, hwrites, _, instrEffect_write_trfcr _ hr, hheld⟩)

/-- Where the values in use after a step come from: they were in use before, or the step reset or wrote the value the
register held. -/
theorem step_usableValues {s t : State} (h : step s = .next t) {r : Trfcr} (hr : r ∈ usableValues t) :
    r ∈ usableValues s ∨ r = resetTrfcr s.cfg s.trfcr s.draws ∨ ∃ v, r = unpackTrfcr s.cfg s.trfcr v := by
  rw [mem_usableValues] at hr ⊢
  obtain ⟨ht, hh | hh⟩ | ⟨-, -, ht, hh⟩ | ⟨-, -, v, ht, hh⟩ := step_storage h <;> rw [ht, hh] at hr
  · exact .inl hr
  · exact .inl (.inr (by simpa using hr))
  · exact .inr (.inl (by simpa using hr))
  · obtain hr | hr := hr
    · exact .inl (by simpa using hr)
    · exact .inr (.inr ⟨v, hr⟩)

/-- A step leaves an absent register, and gives it no history it had not. -/
theorem step_of_absent {s t : State} (h : step s = .next t) (habs : trfcrPresent s.cfg = false) :
    t.trfcr = s.trfcr ∧ (t.held = s.held ∨ t.held = []) := by
  obtain hkeep | ⟨hp, -⟩ | ⟨hp, -⟩ := step_storage h
  · exact hkeep
  · simp [habs] at hp
  · simp [habs] at hp

/-! ### The invariant -/

/-- Settles O49: a value in use after the step is one from before, or a reset or a write of one, and these keep hardwired
bits; an absent register gets no history. -/
theorem everyStepKeepsTheInvariant : Obligations.EveryStepKeepsTheInvariant := by
  rintro s t ⟨hclear, habsent⟩ h
  have hcfg : t.cfg = s.cfg := noStepChangesAParameter s t h
  have hcur : ReservedClear s.cfg s.trfcr := hclear _ (mem_usableValues.2 (.inr rfl))
  constructor
  · intro r hr
    rw [hcfg]
    obtain hr | rfl | ⟨v, rfl⟩ := step_usableValues h hr
    · exact hclear r hr
    · exact resetTrfcr_reservedClear _ hcur
    · exact unpackTrfcr_reservedClear v hcur
  · intro habs
    rw [hcfg] at habs
    obtain ⟨-, hh | hh⟩ := step_of_absent h habs
    · exact hh.trans (habsent habs)
    · exact hh

/-- Settles O48: the one value in use is `Trfcr.atReset`. -/
theorem invariantAtReset : Obligations.InvariantAtReset := by
  constructor
  · intro r hr _
    obtain rfl : r = Trfcr.atReset := by simpa [mem_usableValues, State.reset] using hr
    exact ⟨rfl, rfl⟩
  · exact fun _ => rfl

/-- Settles O52: a write that is no reset leaves a known value in TS. -/
theorem onlyAResetMakesTheTimestampFieldUnknown : Obligations.OnlyAResetMakesTheTimestampFieldUnknown := by
  intro s t ts h hknown hunknown
  obtain ⟨ht, -⟩ | ⟨-, hreset, -⟩ | ⟨-, -, v, ht, -⟩ := step_storage h
  · rw [ht, hknown] at hunknown
    cases hunknown
  · exact hreset
  · rw [ht] at hunknown
    cases hunknown

/-- Settles O53: an instruction completes, and a step resets or writes, only with the register present. -/
theorem absentRegisterIsNeverReachedOrChanged : Obligations.AbsentRegisterIsNeverReachedOrChanged := by
  intro s hno
  have habs : trfcrPresent s.cfg = false := trfcrPresent_eq_false_iff.2 hno
  constructor
  · intro i t hx
    obtain ⟨⟨-, hp, -⟩, -⟩ := exec_next hx
    simp [habs] at hp
  · rintro ⟨-, hhist⟩ t h
    obtain ⟨ht, hh⟩ := step_of_absent h habs
    exact ⟨ht, hh.elim (fun e => e.trans (hhist habs)) id⟩

/-! ### Resets and writes of the storage -/

/-- Settles O31 from the present case of a reset. -/
theorem warmResetClearsBothTraceEnables : Obligations.WarmResetClearsBothTraceEnables := by
  intro s hp
  obtain ⟨-, h⟩ | ⟨habs, -⟩ := warmReset_cases s
  · rw [applyEvent, h]
    exact ⟨rfl, rfl⟩
  · simp [hp] at habs

/-- Settles O34: with the register present both are `writeTrfcr` of the source register's value. -/
theorem trfcrEl1WriteIsAWriteOfTheSameStorage : Obligations.TrfcrEl1WriteIsAWriteOfTheSameStorage := by
  intro i s hr hreach
  refine ⟨_, exec_of_reaches hreach, ?_⟩
  obtain ⟨-, hp, -⟩ := hreach
  rw [instrEffect_write hr]
  obtain ⟨-, h⟩ | ⟨habs, -⟩ := writeTrfcrEl1_cases s (readGpr s i.rt)
  · rw [applyEvent, h]
    exact ⟨rfl, rfl⟩
  · simp [hp] at habs

end Sys2Proof.Machine
end

section
/-! PROOFS. The values direct accesses transfer (10_state.md section 3; 40_sysreg_access.md sections 3 and 4): the 32
bits a read packs and a write unpacks, and what an instruction that completes has read or stored. -/

namespace Sys2Proof.Machine

/-! ### Packing and unpacking -/

/-- The converse of `fields_append`: a word put together from its five fields has these fields (10_state.md R23). -/
theorem fields_of_append (hi : BitVec 25) (ts : BitVec 2) (lo : BitVec 3) (b1 b0 : BitVec 1) :
    let x := hi ++ ts ++ lo ++ b1 ++ b0
    x.extractLsb' 7 25 = hi ∧ x.extractLsb' 5 2 = ts ∧ x.extractLsb' 2 3 = lo ∧ x.extractLsb' 1 1 = b1 ∧
      x.extractLsb' 0 1 = b0 := by
  refine ⟨?_, ?_, ?_, ?_, BitVec.extractLsb'_append_eq_right⟩
  · iterate 4 rw [BitVec.extractLsb'_append_eq_of_le (by decide)]
    exact BitVec.extractLsb'_eq_self
  · iterate 3 rw [BitVec.extractLsb'_append_eq_of_le (by decide)]
    exact BitVec.extractLsb'_append_eq_right
  · iterate 2 rw [BitVec.extractLsb'_append_eq_of_le (by decide)]
    exact BitVec.extractLsb'_append_eq_right
  · rw [BitVec.extractLsb'_append_eq_of_le (by decide)]
    exact BitVec.extractLsb'_append_eq_right

/-- Storing what a read packed fixes TS at the two bits the read gave for it and changes no other field. -/
theorem unpackTrfcr_packTrfcr (cfg : Config) (r : Trfcr) (ts : BitVec 2) :
    unpackTrfcr cfg r (packTrfcr cfg r ts) = { r with ts := .known ts } := by
  obtain ⟨hhi, hts, hlo, hb1, hb0⟩ := fields_of_append (if cfg.res0Storage then r.resHi else 0#25) ts
    (if cfg.res0Storage then r.resLo else 0#3) r.e1tre r.e0tre
  unfold unpackTrfcr packTrfcr
  rw [hhi, hts, hlo, hb1, hb0]
  cases cfg.res0Storage <;> rfl

/-- `0xFFFFFF9C` is the mask of the reserved bits [31:7] and [4:2] (10_state.md R24, R33). -/
theorem packTrfcr_and_reserved_of_hardwired {cfg : Config} (h : cfg.res0Storage = false) (r : Trfcr) (ts : BitVec 2) :
    packTrfcr cfg r ts &&& 0xFFFFFF9C#32 = 0#32 := by
  have hmask : ∀ (ts : BitVec 2) (b1 b0 : BitVec 1),
      (0#25 ++ ts ++ 0#3 ++ b1 ++ b0 : Word) &&& 0xFFFFFF9C#32 = 0#32 := by decide
  simpa [packTrfcr, h] using hmask ts r.e1tre r.e0tre

/-! ### What a completed instruction read or stored -/

@[simp] theorem readGpr_advancePc (s : State) (r : RegNum) : readGpr (advancePc s) r = readGpr s r := rfl

/-- The value a completed read leaves in its destination: the packed register, with TS when it is known and some two
bits when it is UNKNOWN. -/
theorem exec_read_next_value {i : Instr} {s t : State} (hr : i.isRead = true) (h : exec i s = .next t) :
    ∃ ts, readGpr t i.rt = packTrfcr s.cfg s.trfcr ts ∧ ∀ v, s.trfcr.ts = .known v → ts = v := by
  obtain ⟨-, rfl⟩ := exec_next h
  obtain ⟨ts, n, he, hts⟩ := readEffect_cases i.rt s
  refine ⟨ts, ?_, hts⟩
  rw [readGpr_advancePc, instrEffect_read hr, he]
  exact readGpr_writeGpr_same s i.rt _

theorem exec_read_next_trfcr {i : Instr} {s t : State} (hr : i.isRead = true) (h : exec i s = .next t) :
    t.trfcr = s.trfcr := by
  obtain ⟨-, rfl⟩ := exec_next h
  exact instrEffect_read_trfcr s hr

theorem exec_write_next_trfcr {i : Instr} {s t : State} (hr : i.isRead = false) (h : exec i s = .next t) :
    t.trfcr = unpackTrfcr s.cfg s.trfcr (readGpr s i.rt) := by
  obtain ⟨-, rfl⟩ := exec_next h
  exact instrEffect_write_trfcr s hr

/-- Settles O25. -/
theorem hardwiredReservedBitsReadZero : Obligations.HardwiredReservedBitsReadZero := by
  intro i s t hr hhard h
  obtain ⟨ts, hval, -⟩ := exec_read_next_value hr h
  rw [hval]
  exact packTrfcr_and_reserved_of_hardwired hhard s.trfcr ts

/-- Settles O27: the write stores what the first read packed, so TS is known as the two bits that read gave for it, and
the last read packs the same fields with them. -/
theorem writingBackWhatWasReadFixesIt : Obligations.WritingBackWhatWasReadFixesIt := by
  intro a w b s ha hw hb hrt hreach hexw hexb
  have hreachw := reaches_after hreach hexw
  have hreachb := reaches_after hreachw (reaches_after hreach hexb).1
  have hrun := exec_of_reaches hreach
  have hrunw := exec_of_reaches hreachw
  have hrunb := exec_of_reaches hreachb
  refine ⟨_, _, _, hrun, hrunw, hrunb, ?_⟩
  obtain ⟨ts, hval, -⟩ := exec_read_next_value ha hrun
  obtain ⟨ts', hval', hknown⟩ := exec_read_next_value hb hrunb
  have hstored := exec_write_next_trfcr hw hrunw
  rw [hrt, hval, exec_read_next_trfcr ha hrun, exec_next_cfg hrun, unpackTrfcr_packTrfcr] at hstored
  obtain rfl : ts' = ts := hknown ts (by rw [hstored])
  rw [hval', hval, hstored, exec_next_cfg hrunw, exec_next_cfg hrun]
  rfl

end Sys2Proof.Machine
end

section
/-! PROOFS. What the environment owns (10_state.md sections 6 and 7): its events, the inputs and general registers they
alone change besides a read, and the ignore conditions no access depends on. -/

namespace Sys2Proof.Machine

/-! ### The inputs and the general registers -/

@[simp] theorem instrEffect_ctx (i : Instr) (s : State) : (instrEffect i s).ctx = s.ctx := by
  cases hr : i.isRead with
  | true =>
    obtain ⟨g, n, e⟩ := readEffect_frame i.rt s
    rw [instrEffect_read hr, e]
  | false => rw [instrEffect_write hr, writeEffect, writeTrfcr_ctx]

theorem instrEffect_write_gpr {i : Instr} (s : State) (hr : i.isRead = false) : (instrEffect i s).gpr = s.gpr := by
  rw [instrEffect_write hr, writeEffect, writeTrfcr_gpr]

/-- What one event does to the inputs and to the general registers. -/
theorem applyEvent_ctx_gpr (e : Event) (s : State) :
    ((applyEvent e s).ctx = s.ctx ∨ ∃ c, e = .setCtx c) ∧ ((applyEvent e s).gpr = s.gpr ∨ ∃ n v, e = .setGpr n v) := by
  cases e with
  | warmReset => obtain ⟨-, h⟩ | ⟨-, h⟩ := warmReset_cases s <;> simp [applyEvent, h]
  | coldReset => obtain ⟨-, h⟩ | ⟨-, h⟩ := warmReset_cases s <;> simp [applyEvent, coldReset, h]
  | writeTrfcrEl1 v => obtain ⟨-, h⟩ | ⟨-, h⟩ := writeTrfcrEl1_cases s v <;> simp [applyEvent, h]
  | setCtx c => exact ⟨.inr ⟨c, rfl⟩, .inl rfl⟩
  | setGpr n v => exact ⟨.inl rfl, .inr ⟨n, v, rfl⟩⟩
  | _ => exact ⟨.inl rfl, .inl rfl⟩

/-- Settles O55: an event changes the inputs or a register only as its name says, an instruction no input, and a write
no general register. -/
theorem onlyTheEnvironmentAndReadsChangeWhatItOwns : Obligations.OnlyTheEnvironmentAndReadsChangeWhatItOwns := by
  intro s t h
  obtain ⟨-, rfl⟩ | ⟨e, rest, hi, rfl⟩ | ⟨w, rest, i, hi, hd, hx⟩ := step_next h
  · exact ⟨fun hc => absurd rfl hc, fun hg => absurd rfl hg⟩
  · obtain ⟨hctx, hgpr⟩ := applyEvent_ctx_gpr e { s with inputs := rest }
    constructor
    · intro hc
      obtain ⟨c, rfl⟩ := hctx.resolve_left hc
      exact ⟨c, rest, hi⟩
    · intro hg
      obtain ⟨n, v, rfl⟩ := hgpr.resolve_left hg
      exact .inl ⟨n, v, rest, hi⟩
  · obtain ⟨hreach, rfl⟩ := exec_next hx
    refine ⟨fun hc => absurd (instrEffect_ctx i _) hc, fun hg => .inr ⟨w, rest, i, hi, hd, ?_, hreach⟩⟩
    cases hr : i.isRead with
    | true => rfl
    | false => exact absurd (instrEffect_write_gpr _ hr) hg

/-- Settles O56: each event is the record update its clause states, and `setGpr` is `writeGpr`. -/
theorem environmentEventsSetExactlyWhatTheyCarry : Obligations.EnvironmentEventsSetExactlyWhatTheyCarry := by
  intro s rest
  refine ⟨fun c h => step_of_inputs_event h, fun p h => step_of_inputs_event h, fun v h => step_of_inputs_event h, ?_⟩
  intro n v h
  exact ⟨_, step_of_inputs_event h, readGpr_writeGpr_same _ n v, fun r hr => readGpr_writeGpr_other _ v hr, rfl⟩

/-! ### Accesses and the ignore conditions -/

/-- The inputs of `s` with those the ignore conditions of R29, R35 and R39 are made of replaced. -/
def withIgnoreInputs (s : State) (sht : Bool) (hts : BitVec 2) (tge : BitVec 1) : State :=
  { s with ctx := { s.ctx with selfHostedTraceEnabled := sht, htrfcrTs := hts, hcrTge := tge } }

/-- Neither the condition nor presence nor the access check reads one of the three inputs (40_sysreg_access.md R97). -/
theorem reaches_withIgnoreInputs {i : Instr} {s : State} (sht : Bool) (hts : BitVec 2) (tge : BitVec 1)
    (h : Reaches i s) : Reaches i (withIgnoreInputs s sht hts tge) := h

/-- What an instruction does on Access reads no input at all. -/
theorem instrEffect_withCtx (i : Instr) (s : State) (c : Ctx) :
    instrEffect i { s with ctx := c } = { instrEffect i s with ctx := c } := by
  cases hr : i.isRead with
  | true =>
    rw [instrEffect_read hr]
    unfold readEffect readTrfcr
    cases s.trfcr.ts <;> rfl
  | false =>
    rw [instrEffect_write hr]
    rfl

/-- Settles O28: the access still reaches the register, and has the same effect. -/
theorem accessDoesNotDependOnIgnoreConditions : Obligations.AccessDoesNotDependOnIgnoreConditions := by
  intro i s t sht hts tge h
  obtain ⟨hreach, rfl⟩ := exec_next h
  have hrun := exec_of_reaches (reaches_withIgnoreInputs sht hts tge hreach)
  rw [withIgnoreInputs, instrEffect_withCtx] at hrun
  exact hrun

end Sys2Proof.Machine
end

section
/-! PROOFS. What the fields do to trace (10_state.md section 3; 60_exceptions.md sections 6 and 7): the verdict at EL0
and elsewhere, and the timebase of a TS that is ignored and of one that is not. -/

namespace Sys2Proof.Machine

/-! ### The verdict -/

@[simp] theorem enableVerdict_zero : enableVerdict 0#1 = .prohibited := rfl
@[simp] theorem enableVerdict_one : enableVerdict 1#1 = .allowed := rfl

/-- 60_exceptions.md R133 at EL0, presence included. -/
theorem traceVerdict_of_el0 {c : Ctx} (g : Config) (r : Trfcr) (h : c.el = .el0) :
    traceVerdict g c r = if trfcrPresent g && !e0treIgnored c then enableVerdict r.e0tre else .noSay := by
  unfold traceVerdict
  cases trfcrPresent g <;> cases e0treIgnored c <;> simp [h]

/-- 60_exceptions.md R133 at every other level, presence included. -/
theorem traceVerdict_of_not_el0 {c : Ctx} (g : Config) (r : Trfcr) (h : c.el ≠ .el0) :
    traceVerdict g c r =
      if trfcrPresent g && c.inPl1Mode && !e1treIgnored c then enableVerdict r.e1tre else .noSay := by
  unfold traceVerdict
  cases trfcrPresent g <;> cases c.inPl1Mode <;> cases e1treIgnored c <;> simp [h]

/-- Settles O35: both enables are ignored. -/
theorem noVerdictWithoutSelfHostedTrace : Obligations.NoVerdictWithoutSelfHostedTrace := by
  intro g c r hoff
  have hnoSay : traceVerdict g c r = .noSay := by
    by_cases hel : c.el = .el0
    · simp [traceVerdict_of_el0 g r hel, e0treIgnored, hoff]
    · simp [traceVerdict_of_not_el0 g r hel, e1treIgnored, hoff]
  simp [hnoSay]

/-- Settles O36. -/
theorem e0treDecidesTheVerdictAtEl0 : Obligations.E0treDecidesTheVerdictAtEl0 := by
  intro g c r hp hel hon
  rw [traceVerdict_of_el0 g r hel]
  constructor
  · rintro ⟨hel2, htge⟩
    simp [e0treIgnored, hel2, htge]
  · intro hnot
    have hread : e0treIgnored c = false := by simpa [e0treIgnored, hon] using hnot
    constructor <;> intro hbit <;> simp [hp, hread, hbit]

/-- Settles O37. -/
theorem e1treDecidesTheVerdictInPl1Modes : Obligations.E1treDecidesTheVerdictInPl1Modes := by
  intro g c r hp hel hon
  rw [traceVerdict_of_not_el0 g r hel]
  have hread : e1treIgnored c = false := by simp [e1treIgnored, hon]
  constructor
  · intro hpl1
    constructor <;> intro hbit <;> simp [hp, hpl1, hread, hbit]
  · intro hpl1
    simp [hpl1]

/-! ### The timebase -/

/-- `TS_ignored` (10_state.md R29). -/
theorem tsIgnored_eq_true_iff {c : Ctx} :
    tsIgnored c = true ↔ c.selfHostedTraceEnabled = false ∨ c.htrfcrTs ≠ 0b00#2 := by
  simp [tsIgnored]

theorem timebaseChoice_of_tsIgnored {c : Ctx} (g : Config) (r : Trfcr) (h : tsIgnored c = true) :
    timebaseChoice g c r = .noSay := by
  simp [timebaseChoice, h]

/-- The timebase reads the register through TS alone. -/
theorem timebaseChoice_congr_ts (g : Config) (c : Ctx) {r r' : Trfcr} (h : r'.ts = r.ts) :
    timebaseChoice g c r' = timebaseChoice g c r := by
  unfold timebaseChoice
  rw [h]

/-- The timebase of a present register whose TS is not ignored and holds a value (60_exceptions.md R135). -/
theorem timebaseChoice_of_known {g : Config} {c : Ctx} {r : Trfcr} {v : BitVec 2} (hp : trfcrPresent g = true)
    (hc : tsIgnored c = false) (hv : r.ts = .known v) :
    timebaseChoice g c r =
      if v = 0b01#2 then .virtualTime
      else if v = 0b10#2 then (if g.featEcv then .guestPhysical else .unconstrained)
      else if v = 0b11#2 then .physical
      else .unconstrained := by
  simp [timebaseChoice, hp, hc, hv]

theorem timebaseChoice_of_unknown {g : Config} {c : Ctx} {r : Trfcr} (hp : trfcrPresent g = true)
    (hc : tsIgnored c = false) (hv : r.ts = .unknown) : timebaseChoice g c r = .unconstrained := by
  simp [timebaseChoice, hp, hc, hv]

/-- The two conditions under which TS is not ignored. -/
theorem tsIgnored_eq_false {c : Ctx} (hon : c.selfHostedTraceEnabled = true) (hts : c.htrfcrTs = 0b00#2) :
    tsIgnored c = false := by
  simp [tsIgnored, hon, hts]

/-- A sample depends on the register through the choice alone. -/
theorem timebaseSample_congr_choice {g : Config} {c : Ctx} (free : Count) {r r' : Trfcr}
    (h : timebaseChoice g c r' = timebaseChoice g c r) : timebaseSample g c free r' = timebaseSample g c free r := by
  rw [timebaseSample, h, timebaseSample]

/-- Settles O38. -/
theorem traceFunctionsReadOnlyTheirOwnField : Obligations.TraceFunctionsReadOnlyTheirOwnField := by
  intro g c free r r'
  refine ⟨?_, ?_, ?_⟩
  · intro hel hbit
    rw [traceVerdict_of_el0 g r hel, traceVerdict_of_el0 g r' hel, hbit]
  · intro hel hbit
    rw [traceVerdict_of_not_el0 g r hel, traceVerdict_of_not_el0 g r' hel, hbit]
  · intro hts
    exact timebaseSample_congr_choice free (timebaseChoice_congr_ts g c hts)

/-- Settles O39, by the value of TS. -/
theorem definedTimestampFieldSelectsItsTimebase : Obligations.DefinedTimestampFieldSelectsItsTimebase := by
  intro g c r hp hon hhts
  have hread := tsIgnored_eq_false hon hhts
  refine ⟨?_, ?_, ?_⟩
  · intro hts
    exact timebaseChoice_of_known hp hread hts
  · intro hts hecv
    rw [timebaseChoice_of_known hp hread hts]
    simp [hecv]
  · intro hts
    exact timebaseChoice_of_known hp hread hts

/-- Settles O40: in each of the three cases the choice is Unconstrained, and its timestamp is the free value. -/
theorem reservedOrUnknownTimestampFieldIsUnconstrained :
    Obligations.ReservedOrUnknownTimestampFieldIsUnconstrained := by
  intro g c free r hp hon hhts hts
  have hread := tsIgnored_eq_false hon hhts
  have hchoice : timebaseChoice g c r = .unconstrained := by
    obtain hts | hts | ⟨hts, hecv⟩ := hts
    · exact timebaseChoice_of_unknown hp hread hts
    · exact timebaseChoice_of_known hp hread hts
    · rw [timebaseChoice_of_known hp hread hts]
      simp [hecv]
  rw [timebaseSample, hchoice, tracedTimestamp]

/-- Settles O41: an ignored TS gives the choice NoSay whatever the register holds. -/
theorem ignoredTimestampFieldHasNoEffect : Obligations.IgnoredTimestampFieldHasNoEffect := by
  intro g c free r r' h
  have hignored := tsIgnored_eq_true_iff.2 h
  apply timebaseSample_congr_choice
  rw [timebaseChoice_of_tsIgnored g r hignored, timebaseChoice_of_tsIgnored g r' hignored]

end Sys2Proof.Machine
end

section
/-! PROOFS. The register as the only storage of this hardware (20_memory.md sections 2 and 3): two reads with nothing
between them, and what changes the register. -/

namespace Sys2Proof.Machine

/-- A mask of ones in every field but TS clears TS and keeps the other four (10_state.md R23). -/
theorem fields_and_outside_ts (hi : BitVec 25) (ts : BitVec 2) (lo : BitVec 3) (b1 b0 : BitVec 1) :
    hi ++ ts ++ lo ++ b1 ++ b0 &&&
        BitVec.allOnes 25 ++ 0#2 ++ BitVec.allOnes 3 ++ BitVec.allOnes 1 ++ BitVec.allOnes 1 =
      hi ++ 0#2 ++ lo ++ b1 ++ b0 := by
  simp only [BitVec.and_append, BitVec.and_allOnes, BitVec.and_zero]

/-- `0xFFFFFF9F` is the mask of every bit but TS, bits [6:5]: under it every read packs TS as 0. -/
theorem packTrfcr_and_outside_ts (cfg : Config) (r : Trfcr) (ts : BitVec 2) :
    packTrfcr cfg r ts &&& 0xFFFFFF9F#32 = packTrfcr cfg r 0#2 := by
  have hmask : 0xFFFFFF9F#32 =
      BitVec.allOnes 25 ++ 0#2 ++ BitVec.allOnes 3 ++ BitVec.allOnes 1 ++ BitVec.allOnes 1 := by decide
  rw [hmask]
  exact fields_and_outside_ts ..

/-- Settles O26: both reads pack the same register, each with two bits for TS that are TS when it is known. -/
theorem twoReadsAgree : Obligations.TwoReadsAgree := by
  intro a b s t u ha hb hxa hxb
  obtain ⟨tsA, hvalA, hknownA⟩ := exec_read_next_value ha hxa
  obtain ⟨tsB, hvalB, hknownB⟩ := exec_read_next_value hb hxb
  rw [exec_read_next_trfcr ha hxa] at hvalB hknownB
  rw [exec_next_cfg hxa] at hvalB
  rw [hvalA, hvalB]
  constructor
  · intro hts
    cases hv : s.trfcr.ts with
    | unknown => exact absurd hv hts
    | known v => rw [hknownA v hv, hknownB v hv]
  · rw [packTrfcr_and_outside_ts, packTrfcr_and_outside_ts]

/-- Settles O51: of the three things a step can do to the storage, only a reset and a write of a present register give
it another value. -/
theorem onlyWritesAndResetsChangeTheRegister : Obligations.OnlyWritesAndResetsChangeTheRegister := by
  intro s t h hne
  obtain ⟨hkeep, -⟩ | ⟨hp, hwarm | hcold, -⟩ | ⟨hp, hel1 | hmcr, -⟩ := step_storage h
  · exact absurd hkeep hne
  · exact ⟨hp, .inl hwarm⟩
  · exact ⟨hp, .inr (.inl hcold)⟩
  · exact ⟨hp, .inr (.inr (.inl hel1))⟩
  · exact ⟨hp, .inr (.inr (.inr hmcr))⟩

end Sys2Proof.Machine
end

section
/-! PROOFS. Decoding and encoding (30_encoding.md sections 3 to 5): the decoder answers with an instruction exactly on
that instruction's own word, and reads the fields the match and mask values of R78 fix. -/

namespace Sys2Proof

/-! ### The one layout of an access -/

/-- The word of an access to TRFCR with this head field, direction and register number (30_encoding.md R76). -/
def accessWord (head : BitVec 4) (read : Bool) (rt : RegNum) : Word :=
  head ++ 0b1110#4 ++ 0b000#3 ++ BitVec.ofBool read ++ 0b0001#4 ++ rt ++ 0b1111#4 ++ 0b001#3 ++ 1#1 ++ 0b0010#4

theorem encode_eq_accessWord (i : Instr) : encode i = accessWord (headField i) i.isRead i.rt := rfl

theorem eq_accessWord_iff {w : Word} {head : BitVec 4} {read : Bool} {rt : RegNum} :
    w = accessWord head read rt ↔
      condField w = head ∧ namesTrfcr w = true ∧ directionField w = BitVec.ofBool read ∧ rtField w = rt := by
  constructor
  · rintro rfl
    obtain ⟨hnames, hdir, hrt, hcond⟩ := Laws.NamesTrfcr.fields_of_layout head rt read
    exact ⟨hcond, hnames, hdir, hrt⟩
  · rintro ⟨rfl, hnames, hdir, rfl⟩
    rw [accessWord, ← hdir, word_of_namesTrfcr hnames]

/-! ### Decoding is the inverse of encoding -/

theorem decode_of_fields {iset : InstrSet} {w : Word} {c : Cond} (hnames : namesTrfcr w = true)
    (hhead : headOf iset (condField w) = some c) (hrt : Machine.rtAdmitted iset (rtField w) = true) :
    decode iset w = .instr (formOf iset c (directionField w) (rtField w)) := by
  simp [decode, hnames, hhead, hrt]

/-- The converse of `headField_formOf`: the head field an instruction is encoded with, read in its own instruction set,
gives the condition it is made with again. -/
theorem headOf_headField (i : Instr) :
    ∃ c, headOf i.iset (headField i) = some c ∧ formOf i.iset c (BitVec.ofBool i.isRead) i.rt = i := by
  cases i with
  | mrcTrfcrA32 c rt => exact ⟨c, condOfCode_condCode c, rfl⟩
  | mcrTrfcrA32 c rt => exact ⟨c, condOfCode_condCode c, rfl⟩
  | mrcTrfcrT32 rt => exact ⟨.al, rfl, rfl⟩
  | mcrTrfcrT32 rt => exact ⟨.al, rfl, rfl⟩

theorem ofBool_beq_one (d : BitVec 1) : BitVec.ofBool (d == 1#1) = d := by
  revert d
  decide

/-- A decoded word is the word of the instruction it decodes to: each of its fields is the one encoded. -/
theorem encode_of_decode {iset : InstrSet} {w : Word} {i : Instr} (h : decode iset w = .instr i) : encode i = w := by
  obtain ⟨hnames, -, c, hhead, rfl⟩ := decode_instr h
  rw [encode_eq_accessWord, headField_formOf _ _ hhead, formOf_isRead, formOf_rt, eq_comm, eq_accessWord_iff]
  exact ⟨rfl, hnames, (ofBool_beq_one _).symm, rfl⟩

theorem wellFormed_of_decode {iset : InstrSet} {w : Word} {i : Instr} (h : decode iset w = .instr i) :
    i.wellFormed = true ∧ i.iset = iset := by
  obtain ⟨-, hrt, c, -, rfl⟩ := decode_instr h
  rw [Instr.wellFormed, formOf_iset, formOf_rt]
  exact ⟨hrt, rfl⟩

/-- Settles O1: every field of the word is the instruction's own, and its head field gives its condition back. -/
theorem decodeOfEncodeIsTheInstruction : Obligations.DecodeOfEncodeIsTheInstruction := by
  intro i hwf
  obtain ⟨hcond, hnames, hdir, hrt⟩ := eq_accessWord_iff.1 (encode_eq_accessWord i)
  obtain ⟨c, hhead, hform⟩ := headOf_headField i
  rw [← hcond] at hhead
  rw [decode_of_fields hnames hhead (by rwa [hrt]), hdir, hrt, hform]

/-- Settles O2. -/
theorem decodedWordIsTheEncodedWord : Obligations.DecodedWordIsTheEncodedWord := by
  intro iset w i h
  exact ⟨encode_of_decode h, wellFormed_of_decode h⟩

/-! ### The match and mask values (30_encoding.md R78) -/

/-- The fields of a mask that fixes every bit of a word but `Rt`, and of the head field those of `m`. -/
theorem fields_of_mask : ∀ m : BitVec 4,
    let mask : Word := m ++ 0xFFF0FFF#28
    condField mask = m ∧ opField mask = BitVec.allOnes 4 ∧ directionField mask = BitVec.allOnes 1 ∧
      rtField mask = 0#4 ∧ markField mask = BitVec.allOnes 1 ∧
      sysRegAddrOf mask = ⟨BitVec.allOnes 4, BitVec.allOnes 3, BitVec.allOnes 4, BitVec.allOnes 4, BitVec.allOnes 3⟩ := by
  decide

/-- Masking a word masks each of its fields. -/
theorem fields_of_and_mask (w : Word) (m : BitVec 4) :
    let v := w &&& (m ++ 0xFFF0FFF#28)
    condField v = condField w &&& m ∧ namesTrfcr v = namesTrfcr w ∧ directionField v = directionField w ∧
      rtField v = 0#4 := by
  obtain ⟨hcond, hop, hdir, hrt, hmark, haddr⟩ := fields_of_mask m
  simp only [sysRegAddrOf, SysRegAddr.mk.injEq] at haddr
  obtain ⟨hcoproc, hopc1, hcrn, hcrm, hopc2⟩ := haddr
  simp only [condField, opField, directionField, rtField, markField] at *
  simp only [namesTrfcr, opField, markField, sysRegAddrOf, BitVec.extractLsb'_and, *, BitVec.and_allOnes,
    BitVec.and_zero, and_self]

/-- A word matches a row exactly when its masked head field does, it names TRFCR and it has the row's direction. -/
theorem and_mask_eq_accessWord_iff (w : Word) (m head : BitVec 4) (read : Bool) :
    w &&& (m ++ 0xFFF0FFF#28) = accessWord head read 0#4 ↔
      condField w &&& m = head ∧ namesTrfcr w = true ∧ directionField w = BitVec.ofBool read := by
  obtain ⟨hcond, hnames, hdir, hrt⟩ := fields_of_and_mask w m
  rw [eq_accessWord_iff, hcond, hnames, hdir, hrt]
  simp

/-- The match and mask values of the two A32 rows leave the condition free. -/
theorem matches_a32_iff (w : Word) (read : Bool) :
    w &&& 0x0FFF0FFF#32 = accessWord 0#4 read 0#4 ↔ namesTrfcr w = true ∧ directionField w = BitVec.ofBool read := by
  have h := and_mask_eq_accessWord_iff w 0#4 0#4 read
  rw [BitVec.and_zero] at h
  simpa using h

/-- The match and mask values of the two T32 rows fix bits [31:28] at `1110`. -/
theorem matches_t32_iff (w : Word) (read : Bool) :
    w &&& 0xFFFF0FFF#32 = accessWord 0b1110#4 read 0#4 ↔
      condField w = 0b1110#4 ∧ namesTrfcr w = true ∧ directionField w = BitVec.ofBool read := by
  have h := and_mask_eq_accessWord_iff w (BitVec.allOnes 4) 0b1110#4 read
  rwa [BitVec.and_allOnes] at h

theorem headOf_a32_isSome_iff : ∀ b : BitVec 4, (headOf .a32 b).isSome = true ↔ b ≠ 0b1111#4 := by decide

theorem headOf_t32_isSome_iff : ∀ b : BitVec 4, (headOf .t32 b).isSome = true ↔ b = 0b1110#4 := by decide

/-- The words that decode to a read, and those that decode to a write, by their fields. -/
theorem exists_decode_iff {iset : InstrSet} {w : Word} {read : Bool} :
    (∃ i, i.isRead = read ∧ decode iset w = .instr i) ↔
      (namesTrfcr w = true ∧ directionField w = BitVec.ofBool read) ∧
        (headOf iset (condField w)).isSome = true ∧ Machine.rtAdmitted iset (rtField w) = true := by
  constructor
  · rintro ⟨i, rfl, h⟩
    obtain ⟨hnames, hrt, c, hhead, rfl⟩ := decode_instr h
    rw [formOf_isRead, ofBool_beq_one]
    exact ⟨⟨hnames, rfl⟩, by rw [hhead]; rfl, hrt⟩
  · rintro ⟨⟨hnames, hdir⟩, hhead, hrt⟩
    obtain ⟨c, hc⟩ := Option.isSome_iff_exists.1 hhead
    refine ⟨_, ?_, decode_of_fields hnames hc hrt⟩
    rw [formOf_isRead, hdir]
    cases read <;> rfl

theorem exists_decode_a32_iff (w : Word) (read : Bool) :
    (∃ i, i.isRead = read ∧ decode .a32 w = .instr i) ↔
      w &&& 0x0FFF0FFF#32 = accessWord 0#4 read 0#4 ∧ condField w ≠ 0b1111#4 ∧ rtField w ≠ 15#4 := by
  rw [exists_decode_iff, matches_a32_iff, headOf_a32_isSome_iff]
  simp [Machine.rtAdmitted]

theorem exists_decode_t32_iff (w : Word) (read : Bool) :
    (∃ i, i.isRead = read ∧ decode .t32 w = .instr i) ↔
      w &&& 0xFFFF0FFF#32 = accessWord 0b1110#4 read 0#4 ∧ rtField w ≠ 15#4 ∧ rtField w ≠ 13#4 := by
  rw [exists_decode_iff, matches_t32_iff, headOf_t32_isSome_iff]
  simp only [Machine.rtAdmitted, Bool.and_eq_true, bne_iff_ne]
  tauto

/-- Settles O3: the match values are the words of R78's rows with register number 0, and condition 0 in A32. -/
theorem decoderAgreesWithMatchAndMask : Obligations.DecoderAgreesWithMatchAndMask := by
  intro w
  exact ⟨exists_decode_a32_iff w true, exists_decode_a32_iff w false, exists_decode_t32_iff w true,
    exists_decode_t32_iff w false⟩

end Sys2Proof
end

section
/-! PROOFS. What is refused by name (30_encoding.md sections 2 and 5): a word that is no access to TRFCR, a register
number not admitted, a failing condition; and the T32 forms as the A32 forms with the IT block's condition (section 3). -/

namespace Sys2Proof.Machine

/-! ### Words that are no access to TRFCR -/

theorem namesTrfcr_iff {w : Word} :
    namesTrfcr w = true ↔
      w.extractLsb' 8 4 = 0b1111#4 ∧ w.extractLsb' 21 3 = 0b000#3 ∧ w.extractLsb' 16 4 = 0b0001#4 ∧
        w.extractLsb' 0 4 = 0b0010#4 ∧ w.extractLsb' 5 3 = 0b001#3 ∧
        w.extractLsb' 24 4 = 0b1110#4 ∧ w.extractLsb' 4 1 = 1#1 := by
  simp only [namesTrfcr, sysRegAddrOf, trfcrAddr, opField, markField, Bool.and_eq_true, beq_iff_eq,
    SysRegAddr.mk.injEq]
  tauto

theorem decode_of_not_namesTrfcr {w : Word} (iset : InstrSet) (h : namesTrfcr w ≠ true) :
    decode iset w = .refused (.notThisHardware w) := by
  simp [decode, h]

theorem decode_of_headOf_none {iset : InstrSet} {w : Word} (h : headOf iset (condField w) = none) :
    decode iset w = .refused (.notThisHardware w) := by
  simp [decode, h]

theorem step_of_inputs_word_refused {s : State} {w : Word} {rest : List Input} {r : DecodeRefusal}
    (h : s.inputs = .word w :: rest) (hd : decode s.issue.iset w = .refused r) : step s = .refused (refusalOf r) := by
  simp [step, fetch, h, hd]

/-- Settles O4: either a field R72 or R76 fixes differs, and the word does not name TRFCR, or its bits [31:28] are no
head field in the instruction set in force. -/
theorem neighbouringEncodingIsRefusedByName : Obligations.NeighbouringEncodingIsRefusedByName := by
  intro s w rest hi hfields
  suffices hd : decode s.issue.iset w = .refused (.notThisHardware w) from step_of_inputs_word_refused hi hd
  by_cases hnames : namesTrfcr w = true
  · obtain ⟨hcoproc, hopc1, hcrn, hcrm, hopc2, hop, hmark⟩ := namesTrfcr_iff.1 hnames
    have hhead : (s.issue.iset = .a32 ∧ condField w = 0b1111#4) ∨ (s.issue.iset = .t32 ∧ condField w ≠ 0b1110#4) := by
      simpa [condField, hcoproc, hopc1, hcrn, hcrm, hopc2, hop, hmark] using hfields
    obtain ⟨hset, hcond⟩ | ⟨hset, hcond⟩ := hhead
    · exact decode_of_headOf_none (by rw [hset, hcond]; rfl)
    · exact decode_of_headOf_none (by simp [hset, headOf, hcond])
  · exact decode_of_not_namesTrfcr _ hnames

/-! ### Instructions that do not execute -/

theorem exec_of_not_admitted {i : Instr} (s : State) (h : rtAdmitted i.iset i.rt = false) :
    exec i s = .refused (.registerNotAdmitted i.rt) := by
  rw [exec_eq_accessTrfcr]
  simp [accessTrfcr, h]

/-- Settles O5. -/
theorem registerNotAdmittedIsRefusedByName : Obligations.RegisterNotAdmittedIsRefusedByName := by
  intro s c
  exact ⟨exec_of_not_admitted s rfl, exec_of_not_admitted s rfl, exec_of_not_admitted s rfl,
    exec_of_not_admitted s rfl, exec_of_not_admitted s rfl, exec_of_not_admitted s rfl⟩

theorem condPasses_al (p : Issue) : condPasses p .al = true := rfl

theorem condPasses_eq_false_iff {p : Issue} {c : Cond} : condPasses p c = false ↔ c ≠ .al ∧ c ∉ p.condsHolding := by
  simp [condPasses]

theorem exec_of_condition_fails {i : Instr} {s : State} (hrt : rtAdmitted i.iset i.rt = true)
    (hc : condPasses s.issue (conditionOf s.issue i) = false) : exec i s = .refused .conditionFailed := by
  rw [exec_eq_accessTrfcr]
  simp [accessTrfcr, hrt, hc]

theorem endAccess_ne_refused (o : AccessOutcome) (s : State) (f : State → State) (r : Refusal) :
    endAccess o s f ≠ .refused r := by
  cases o <;> exact nofun

/-- An instruction whose condition passes is refused only for its register number or for the case of R90 without an
outcome. -/
theorem exec_ne_conditionFailed {i : Instr} {s : State} (hc : condPasses s.issue (conditionOf s.issue i) = true) :
    exec i s ≠ .refused .conditionFailed := by
  cases hrt : rtAdmitted i.iset i.rt with
  | false =>
    rw [exec_of_not_admitted s hrt]
    exact nofun
  | true =>
    rw [exec_eq_accessTrfcr]
    cases hp : trfcrPresent s.cfg with
    | true =>
      rw [accessTrfcr_of_present _ ⟨hrt, hc⟩ hp]
      exact endAccess_ne_refused _ _ _ _
    | false =>
      rw [accessTrfcr_of_absent _ ⟨hrt, hc⟩ hp]
      split <;> exact nofun

/-- Settles O9. -/
theorem failingConditionIsRefusedByName : Obligations.FailingConditionIsRefusedByName := by
  constructor
  · intro i s hrt hal hnot
    exact exec_of_condition_fails hrt (condPasses_eq_false_iff.2 ⟨hal, hnot⟩)
  · intro i s hal
    exact exec_ne_conditionFailed (by rw [hal, condPasses_al])

/-! ### The T32 forms -/

theorem rtAdmitted_t32_of_ne {rt : RegNum} (h : rt ≠ 13#4) : rtAdmitted .t32 rt = rtAdmitted .a32 rt := by
  simp [rtAdmitted, h]

/-- An access depends on its instruction only through the register number, whether that is admitted, and the condition. -/
theorem accessTrfcr_congr {i j : Instr} {s : State} (f : State → State) (hrt : i.rt = j.rt)
    (hadm : rtAdmitted i.iset i.rt = rtAdmitted j.iset j.rt) (hc : conditionOf s.issue i = conditionOf s.issue j) :
    accessTrfcr i s f = accessTrfcr j s f := by
  rw [accessTrfcr, hadm, hrt, hc, accessTrfcr]

/-- Settles O29. -/
theorem t32FormsActAsTheA32FormsWithTheirCondition : Obligations.T32FormsActAsTheA32FormsWithTheirCondition := by
  intro rt s h
  have hadm := rtAdmitted_t32_of_ne h
  exact ⟨accessTrfcr_congr _ rfl hadm rfl, accessTrfcr_congr _ rfl hadm rfl⟩

end Sys2Proof.Machine
end

section
/-! PROOFS. The access check (40_sysreg_access.md section 2): its outcome at each Exception level as the first arm of
the source's table that holds, the inputs it reads, and where it lets an access through. -/

namespace Sys2Proof.Machine

/-! ### The check at each Exception level -/

theorem accessCheck_of_el0 (g : Config) {c : Ctx} (h : c.el = .el0) : accessCheck g c = .undefined := by
  rw [accessCheck, h]

theorem accessCheck_of_el1 (g : Config) {c : Ctx} (h : c.el = .el1) : accessCheck g c = checkEl1 g c := by
  rw [accessCheck, h]

theorem accessCheck_of_el2 (g : Config) {c : Ctx} (h : c.el = .el2) : accessCheck g c = checkEl2 g c := by
  rw [accessCheck, h]

theorem accessCheck_of_el3 (g : Config) {c : Ctx} (h : c.el = .el3) : accessCheck g c = checkEl3 c := by
  rw [accessCheck, h]

theorem el3In64_iff {g : Config} {c : Ctx} : el3In64 g c = true ↔ g.haveEl3 = true ∧ c.el3IsAArch32 = false := by
  simp [el3In64]

theorem el3In32_iff {g : Config} {c : Ctx} : el3In32 g c = true ↔ g.haveEl3 = true ∧ c.el3IsAArch32 = true := by
  simp [el3In32]

theorem el2In64_iff {c : Ctx} : el2In64 c = true ↔ c.el2Enabled = true ∧ c.el2IsAArch32 = false := by
  simp [el2In64]

theorem el2In32_iff {c : Ctx} : el2In32 c = true ↔ c.el2Enabled = true ∧ c.el2IsAArch32 = true := by
  simp [el2In32]

theorem notMonitor_iff {c : Ctx} : notMonitor c = true ↔ c.mIsMonitor = false := by
  simp [notMonitor]

/-! ### The tables of arms -/

/-- When an arm of the first part of a table holds, the outcome is that of an arm of this part that holds. -/
theorem firstArm_append_of_holds {arms : List (Bool × AccessOutcome)} (rest : List (Bool × AccessOutcome))
    (h : ∃ arm ∈ arms, arm.1 = true) : ∃ arm ∈ arms, arm.1 = true ∧ firstArm (arms ++ rest) = arm.2 := by
  induction arms with
  | nil => simp at h
  | cons arm arms ih =>
    cases harm : arm.1 with
    | true => exact ⟨arm, List.mem_cons_self, harm, by simp [firstArm, harm]⟩
    | false =>
      obtain ⟨arm', hmem, hholds, hout⟩ := ih (by simpa [harm] using h)
      exact ⟨arm', List.mem_cons_of_mem _ hmem, hholds, by simpa [firstArm, harm] using hout⟩

theorem firstArm_eq_access_of_none_holds {arms : List (Bool × AccessOutcome)} (h : ∀ arm ∈ arms, arm.1 = false) :
    firstArm arms = .access := by
  induction arms with
  | nil => rfl
  | cons arm arms ih =>
    rw [List.forall_mem_cons] at h
    rw [firstArm, h.1]
    exact ih h.2

/-- Arms E1.1 to E1.6: the traps to EL3 that SDD_PRIORITY puts first, then the traps to EL2 (R94). -/
def el1ArmsUpToEl2 (g : Config) (c : Ctx) : List (Bool × AccessOutcome) :=
  [ (haltSdd c && g.sddPriority && el3In64 g c && c.mdcrEl3Ttrf == 1#1, .undefined),
    (haltSdd c && g.sddPriority && el3In32 g c && notMonitor c && c.sdcrTtrf == 1#1, .undefined),
    (el2In64 c && c.hstrEl2T1 == 1#1, .trapEL2A64 systemAccessCode),
    (el2In32 c && c.hstrT1 == 1#1, .trapHyp systemAccessCode),
    (el2In64 c && c.mdcrEl2Ttrf == 1#1, .trapEL2A64 systemAccessCode),
    (el2In32 c && c.hdcrTtrf == 1#1, .trapHyp systemAccessCode) ]

/-- Arms E1.7 and E1.8: the traps to EL3 (R94). -/
def el1ArmsToEl3 (g : Config) (c : Ctx) : List (Bool × AccessOutcome) :=
  [ (el3In64 g c && c.mdcrEl3Ttrf == 1#1, if haltSdd c then .undefined else .trapEL3A64 systemAccessCode),
    (el3In32 g c && notMonitor c && c.sdcrTtrf == 1#1, if haltSdd c then .undefined else .trapMonitor) ]

/-- Arms E2.1 to E2.4 (R95). -/
def el2Arms (g : Config) (c : Ctx) : List (Bool × AccessOutcome) :=
  [ (haltSdd c && g.sddPriority && el3In64 g c && c.mdcrEl3Ttrf == 1#1, .undefined),
    (haltSdd c && g.sddPriority && el3In32 g c && c.sdcrTtrf == 1#1, .undefined),
    (el3In64 g c && c.mdcrEl3Ttrf == 1#1, if haltSdd c then .undefined else .trapEL3A64 systemAccessCode),
    (el3In32 g c && c.sdcrTtrf == 1#1, if haltSdd c then .undefined else .trapMonitor) ]

theorem checkEl1_eq_firstArm (g : Config) (c : Ctx) :
    checkEl1 g c = firstArm (el1ArmsUpToEl2 g c ++ el1ArmsToEl3 g c) := rfl

theorem checkEl2_eq_firstArm (g : Config) (c : Ctx) : checkEl2 g c = firstArm (el2Arms g c) := rfl

/-! ### At EL1 -/

/-- One of the two trap controls of the EL2 in use is set (arms E1.3 to E1.6 of R94). -/
def El2TrapSet (c : Ctx) : Prop :=
  (el2In64 c = true ∧ (c.hstrEl2T1 = 1#1 ∨ c.mdcrEl2Ttrf = 1#1)) ∨
    (el2In32 c = true ∧ (c.hstrT1 = 1#1 ∨ c.hdcrTtrf = 1#1))

/-- Under a trap to EL2 the outcome is that trap, or Undefined where SDD_PRIORITY puts a trap to EL3 first. -/
theorem checkEl1_of_el2_trap (g : Config) {c : Ctx} (h : El2TrapSet c) :
    (checkEl1 g c = .undefined ∧ g.sddPriority = true) ∨ checkEl1 g c = .trapEL2A64 systemAccessCode ∨
      checkEl1 g c = .trapHyp systemAccessCode := by
  have hsome : ∃ arm ∈ el1ArmsUpToEl2 g c, arm.1 = true := by
    obtain ⟨h64, ht | ht⟩ | ⟨h32, ht | ht⟩ := h <;> simp [el1ArmsUpToEl2, *]
  have hrows : ∀ arm ∈ el1ArmsUpToEl2 g c, arm.1 = true →
      (arm.2 = .undefined ∧ g.sddPriority = true) ∨ arm.2 = .trapEL2A64 systemAccessCode ∨
        arm.2 = .trapHyp systemAccessCode := by
    simp +contextual [el1ArmsUpToEl2]
  obtain ⟨arm, hmem, hholds, hout⟩ := firstArm_append_of_holds (el1ArmsToEl3 g c) hsome
  rw [checkEl1_eq_firstArm, hout]
  exact hrows arm hmem hholds

/-- Settles O13: the abbreviations of R92 stand for the source's conjuncts in another order, and an arm to EL2 that
holds shuts out every later arm. -/
theorem el1OutcomeIsThatOfTheFirstArm : Obligations.El1OutcomeIsThatOfTheFirstArm := by
  intro g c hel
  rw [accessCheck_of_el1 g hel]
  constructor
  · rw [checkEl1_eq_firstArm, el1ArmsUpToEl2, el1ArmsToEl3, haltSdd, el3In64, el3In32, el2In64, el2In32, notMonitor,
      systemAccessCode]
    simp only [List.cons_append, List.nil_append, Bool.and_assoc, Bool.and_left_comm g.haveEl3]
  · intro htrap
    have hset : El2TrapSet c := by simpa [El2TrapSet, el2In64_iff, el2In32_iff, and_assoc] using htrap
    obtain ⟨ho, hprio⟩ | ho | ho := checkEl1_of_el2_trap g hset <;> simp [*]

/-! ### At EL2 -/

/-- At EL2 arms E2.1 and E2.2 give nothing that arms E2.3 and E2.4 would not give (R95). -/
theorem checkEl2_eq_without_priority_arms (g : Config) (c : Ctx) :
    checkEl2 g c =
      if el3In64 g c && c.mdcrEl3Ttrf == 1#1 then if haltSdd c then .undefined else .trapEL3A64 systemAccessCode
      else if el3In32 g c && c.sdcrTtrf == 1#1 then if haltSdd c then .undefined else .trapMonitor
      else .access := by
  simp only [checkEl2, Bool.and_assoc]
  cases haltSdd c with
  | false => simp
  | true => cases el3In64 g c && c.mdcrEl3Ttrf == 1#1 <;> cases el3In32 g c && c.sdcrTtrf == 1#1 <;> simp

/-- Settles O14: the table is the check's own, and SDD_PRIORITY stands only in the arms the check can do without. -/
theorem el2OutcomeIsThatOfTheFirstArm : Obligations.El2OutcomeIsThatOfTheFirstArm := by
  intro g c hel
  simp only [accessCheck_of_el2 _ hel]
  constructor
  · rw [checkEl2_eq_firstArm, el2Arms, haltSdd, el3In64, el3In32, systemAccessCode]
    simp only [Bool.and_assoc, Bool.and_left_comm g.haveEl3]
  · intro p
    rw [checkEl2_eq_without_priority_arms, checkEl2_eq_without_priority_arms]
    rfl

/-! ### At EL3 -/

theorem checkEl3_eq_trapMonitor {c : Ctx} (h : c.mIsMonitor = false ∧ c.sdcrTtrf = 1#1) :
    checkEl3 c = .trapMonitor := by
  simp [checkEl3, notMonitor, h]

theorem checkEl3_eq_access {c : Ctx} (h : ¬ (c.mIsMonitor = false ∧ c.sdcrTtrf = 1#1)) : checkEl3 c = .access := by
  simpa [checkEl3, notMonitor] using h

theorem checkEl3_congr {c c' : Ctx} (hmon : c'.mIsMonitor = c.mIsMonitor) (httrf : c'.sdcrTtrf = c.sdcrTtrf) :
    checkEl3 c' = checkEl3 c := by
  unfold checkEl3 notMonitor
  rw [hmon, httrf]

/-- Settles O15: the check at EL3 reads two inputs. -/
theorem el3OutcomeIsThatOfTheFirstArm : Obligations.El3OutcomeIsThatOfTheFirstArm := by
  intro g c hel
  rw [accessCheck_of_el3 g hel]
  refine ⟨checkEl3_eq_trapMonitor, checkEl3_eq_access, fun g' c' hel' hmon httrf => ?_⟩
  rw [accessCheck_of_el3 g' hel', checkEl3_congr hmon httrf]

/-! ### The inputs the check reads -/

/-- Settles O16, level by level; at EL2 by the form of the check without SDD_PRIORITY. -/
theorem checkReadsOnlyTheListedInputs : Obligations.CheckReadsOnlyTheListedInputs := by
  intro g g' c c' hel h1 h2 h3
  cases hlevel : c.el with
  | el0 => rw [accessCheck_of_el0 g hlevel, accessCheck_of_el0 g' (hel.trans hlevel)]
  | el1 =>
    obtain ⟨hhalted, hsdd, h3a32, h2a32, h2on, hmon, hmdcr3, hsdcr, hstr2, hstr, hmdcr2, hhdcr, hhave3, hprio⟩ :=
      h1 hlevel
    rw [accessCheck_of_el1 g hlevel, accessCheck_of_el1 g' (hel.trans hlevel)]
    unfold checkEl1 haltSdd el3In64 el3In32 el2In64 el2In32 notMonitor
    rw [hhalted, hsdd, h3a32, h2a32, h2on, hmon, hmdcr3, hsdcr, hstr2, hstr, hmdcr2, hhdcr, hhave3, hprio]
  | el2 =>
    obtain ⟨hhalted, hsdd, h3a32, hmdcr3, hsdcr, hhave3⟩ := h2 hlevel
    rw [accessCheck_of_el2 g hlevel, accessCheck_of_el2 g' (hel.trans hlevel), checkEl2_eq_without_priority_arms,
      checkEl2_eq_without_priority_arms]
    unfold haltSdd el3In64 el3In32
    rw [hhalted, hsdd, h3a32, hmdcr3, hsdcr, hhave3]
  | el3 =>
    obtain ⟨hmon, hsdcr⟩ := h3 hlevel
    rw [accessCheck_of_el3 g hlevel, accessCheck_of_el3 g' (hel.trans hlevel), checkEl3_congr hmon hsdcr]

/-! ### Where no trap control in use is set -/

theorem checkEl1_eq_access {g : Config} {c : Ctx}
    (h264 : el2In64 c = true → c.hstrEl2T1 = 0#1 ∧ c.mdcrEl2Ttrf = 0#1)
    (h232 : el2In32 c = true → c.hstrT1 = 0#1 ∧ c.hdcrTtrf = 0#1) (h364 : el3In64 g c = true → c.mdcrEl3Ttrf = 0#1)
    (h332 : el3In32 g c = true → notMonitor c = true → c.sdcrTtrf = 0#1) : checkEl1 g c = .access := by
  rw [checkEl1_eq_firstArm]
  apply firstArm_eq_access_of_none_holds
  simp +contextual [el1ArmsUpToEl2, el1ArmsToEl3, h264, h232, h364, h332]

theorem checkEl2_eq_access {g : Config} {c : Ctx} (h364 : el3In64 g c = true → c.mdcrEl3Ttrf = 0#1)
    (h332 : el3In32 g c = true → c.sdcrTtrf = 0#1) : checkEl2 g c = .access := by
  rw [checkEl2_eq_firstArm]
  apply firstArm_eq_access_of_none_holds
  simp +contextual [el2Arms, h364, h332]

end Sys2Proof.Machine
end

section
/-! PROOFS. How an access ends (40_sysreg_access.md section 1; 60_exceptions.md sections 4 and 5): by presence and by
the outcome of the check. -/

namespace Sys2Proof.Machine

/-! ### Presence -/

theorem exec_of_present {i : Instr} {s : State} (h : Executes i s) (hp : trfcrPresent s.cfg = true) :
    exec i s = endAccess (accessCheck s.cfg s.ctx) s (instrEffect i) := by
  rw [exec_eq_accessTrfcr, accessTrfcr_of_present _ h hp]

theorem exec_of_absent {i : Instr} {s : State} (h : Executes i s) (hp : trfcrPresent s.cfg = false) :
    exec i s = if t1TrapApplies s.ctx then .refused .absentUnderT1Trap else .fault .undefined := by
  rw [exec_eq_accessTrfcr, accessTrfcr_of_absent _ h hp]

/-- The case of D6: EL1 under the T1 control of the EL2 in use (40_sysreg_access.md R90). -/
theorem t1TrapApplies_iff {c : Ctx} :
    t1TrapApplies c = true ↔ c.el = .el1 ∧ c.el2Enabled = true ∧
      ((c.el2IsAArch32 = false ∧ c.hstrEl2T1 = 1#1) ∨ (c.el2IsAArch32 = true ∧ c.hstrT1 = 1#1)) := by
  simp [t1TrapApplies, and_assoc]

/-- Settles O10. -/
theorem absentRegisterAccessIsUndefined : Obligations.AbsentRegisterAccessIsUndefined := by
  intro i s hx habs hnot
  rw [exec_of_absent hx (trfcrPresent_eq_false_iff.2 habs), if_neg (fun h => hnot (t1TrapApplies_iff.1 h))]

/-- Settles O11. -/
theorem absentRegisterUnderT1ControlIsRefused : Obligations.AbsentRegisterUnderT1ControlIsRefused := by
  intro i s hx habs h
  rw [exec_of_absent hx (trfcrPresent_eq_false_iff.2 habs), if_pos (t1TrapApplies_iff.2 h)]

/-- Settles O12: a present register by arm E0.1, an absent one because the case of D6 is one of EL1. -/
theorem el0AccessIsUndefined : Obligations.El0AccessIsUndefined := by
  intro i s hx hel
  cases hp : trfcrPresent s.cfg with
  | true =>
    rw [exec_of_present hx hp, accessCheck_of_el0 _ hel]
    rfl
  | false =>
    have hnot : ¬ t1TrapApplies s.ctx = true := by simp [t1TrapApplies_iff, hel]
    rw [exec_of_absent hx hp, if_neg hnot]

/-- Settles O19. -/
theorem everyOutcomeEndsTheAccessUnderItsLabel : Obligations.EveryOutcomeEndsTheAccessUnderItsLabel := by
  intro i s hx hp
  rw [exec_of_present hx hp]
  cases accessCheck s.cfg s.ctx with
  | access => exact ⟨_, rfl⟩
  | _ => rfl

/-! ### Completion -/

/-- A read has its effect on the general registers and the count of draws, a write on the register and the values held
before, and an instruction on nothing else. -/
theorem instrEffect_frame (i : Instr) (s : State) :
    ∃ g n r vs, instrEffect i s = { s with gpr := g, draws := n, trfcr := r, held := vs } := by
  cases hr : i.isRead with
  | true =>
    obtain ⟨g, n, e⟩ := readEffect_frame i.rt s
    exact ⟨g, n, s.trfcr, s.held, by rw [instrEffect_read hr, e]⟩
  | false => exact ⟨s.gpr, s.draws, _, _, by rw [instrEffect_write hr]; rfl⟩

theorem exec_next_frame {i : Instr} {s t : State} (h : exec i s = .next t) :
    ∃ g n r vs, t = { s with gpr := g, draws := n, trfcr := r, held := vs, pc := s.pc + 4 } := by
  obtain ⟨-, rfl⟩ := exec_next h
  obtain ⟨g, n, r, vs, e⟩ := instrEffect_frame i s
  exact ⟨g, n, r, vs, by rw [e]; rfl⟩

/-- Settles O20: above EL0 the check lets the access through, level by level. -/
theorem untrappedPrivilegedAccessCompletes : Obligations.UntrappedPrivilegedAccessCompletes := by
  intro i s hx hany htrf hel0 hel3 hel3use hel2use
  have hp : trfcrPresent s.cfg = true := by simp [trfcrPresent, hany, htrf]
  have h364 : s.ctx.el ≠ .el3 → el3In64 s.cfg s.ctx = true → s.ctx.mdcrEl3Ttrf = 0#1 := by
    intro hne hin
    obtain ⟨hhave, ha64⟩ := el3In64_iff.1 hin
    exact (hel3use hne hhave).1 ha64
  have h332 : s.ctx.el ≠ .el3 → el3In32 s.cfg s.ctx = true →
      s.ctx.sdcrTtrf = 0#1 ∨ (s.ctx.el = .el1 ∧ s.ctx.mIsMonitor = true) := by
    intro hne hin
    obtain ⟨hhave, ha32⟩ := el3In32_iff.1 hin
    exact (hel3use hne hhave).2 ha32
  have hcheck : accessCheck s.cfg s.ctx = .access := by
    cases hlevel : s.ctx.el with
    | el0 => exact absurd hlevel hel0
    | el1 =>
      have hne : s.ctx.el ≠ .el3 := by simp [hlevel]
      rw [accessCheck_of_el1 _ hlevel]
      refine checkEl1_eq_access ?_ ?_ (h364 hne) ?_
      · intro hin
        obtain ⟨hon, ha64⟩ := el2In64_iff.1 hin
        exact (hel2use hlevel hon).1 ha64
      · intro hin
        obtain ⟨hon, ha32⟩ := el2In32_iff.1 hin
        exact (hel2use hlevel hon).2 ha32
      · intro hin hmon
        exact (h332 hne hin).resolve_right (by simp [notMonitor_iff.1 hmon])
    | el2 =>
      have hne : s.ctx.el ≠ .el3 := by simp [hlevel]
      rw [accessCheck_of_el2 _ hlevel]
      exact checkEl2_eq_access (h364 hne) fun hin => (h332 hne hin).resolve_right (by simp [hlevel])
    | el3 =>
      rw [accessCheck_of_el3 _ hlevel]
      apply checkEl3_eq_access
      rintro ⟨hmon, httrf⟩
      simpa [hmon, httrf] using hel3 hlevel
  have hrun := exec_of_reaches ⟨hx, hp, hcheck⟩
  obtain ⟨g, n, r, vs, hframe⟩ := exec_next_frame hrun
  exact ⟨_, hrun, by rw [hframe]⟩

end Sys2Proof.Machine
end

section
/-! PROOFS. The read and the write (40_sysreg_access.md sections 3 and 4): what each leaves unchanged, what it leaves in
its destination, and a read straight after a write. -/

namespace Sys2Proof.Machine

/-! ### What a read and a write leave unchanged -/

theorem exec_read_next_held {i : Instr} {s t : State} (hr : i.isRead = true) (h : exec i s = .next t) :
    t.held = s.held := by
  obtain ⟨-, rfl⟩ := exec_next h
  rw [advancePc_held, instrEffect_held, hr]
  rfl

theorem exec_read_next_other {i : Instr} {s t : State} (hr : i.isRead = true) (h : exec i s = .next t) {r : RegNum}
    (hne : r ≠ i.rt) : readGpr t r = readGpr s r := by
  obtain ⟨-, rfl⟩ := exec_next h
  obtain ⟨ts, n, e, -⟩ := readEffect_cases i.rt s
  rw [readGpr_advancePc, instrEffect_read hr, e]
  exact readGpr_writeGpr_other s _ hne

theorem exec_write_next_gpr_draws {i : Instr} {s t : State} (hr : i.isRead = false) (h : exec i s = .next t) :
    t.gpr = s.gpr ∧ t.draws = s.draws := by
  obtain ⟨-, rfl⟩ := exec_next h
  rw [instrEffect_write hr]
  exact ⟨rfl, rfl⟩

/-- Settles O30. -/
theorem instructionsLeaveTheirFrame : Obligations.InstructionsLeaveTheirFrame := by
  intro i s t h
  obtain ⟨g, n, r, vs, rfl⟩ := exec_next_frame h
  refine ⟨rfl, rfl, rfl, rfl, rfl, rfl, ?_, ?_⟩
  · intro hr
    exact ⟨exec_read_next_trfcr hr h, exec_read_next_held hr h, fun r hne => exec_read_next_other hr h hne⟩
  · exact fun hw => exec_write_next_gpr_draws hw h

/-! ### What a read delivers and a write stores -/

theorem readEffect_of_known {s : State} {ts : BitVec 2} (rt : RegNum) (h : s.trfcr.ts = .known ts) :
    readEffect rt s = writeGpr s rt (packTrfcr s.cfg s.trfcr ts) := by
  rw [readEffect, readTrfcr, h]

theorem readEffect_of_unknown {s : State} (rt : RegNum) (h : s.trfcr.ts = .unknown) :
    readEffect rt s = writeGpr (countDraw s) rt (packTrfcr s.cfg s.trfcr (Config.freeTs s.draws)) := by
  rw [readEffect, readTrfcr, h]

/-- Settles O21. -/
theorem mrcLeavesTheRegisterValueInItsDestination : Obligations.MrcLeavesTheRegisterValueInItsDestination := by
  intro i s ts hr hreach hts
  have hrun := exec_of_reaches hreach
  rw [instrEffect_read hr, readEffect_of_known i.rt hts] at hrun
  exact ⟨_, hrun, readGpr_writeGpr_same s i.rt _, fun r hne => readGpr_writeGpr_other s _ hne, rfl⟩

/-- Settles O22: the two bits delivered for TS are the free value drawn. -/
theorem mrcOfUnknownTimestampFieldCompletes : Obligations.MrcOfUnknownTimestampFieldCompletes := by
  intro i s hr hreach hts
  have hrun := exec_of_reaches hreach
  rw [instrEffect_read hr, readEffect_of_unknown i.rt hts] at hrun
  exact ⟨_, _, hrun, readGpr_writeGpr_same _ i.rt _, fun r hne => readGpr_writeGpr_other _ _ hne, rfl⟩

/-- Settles O23. -/
theorem mcrStoresItsSourceInTheRegister : Obligations.McrStoresItsSourceInTheRegister := by
  intro i s hr hreach
  have hrun := exec_of_reaches hreach
  rw [instrEffect_write hr] at hrun
  refine ⟨_, hrun, rfl, rfl, rfl, ?_, ?_, rfl, rfl⟩
  · intro hstorage
    simp [writeEffect, unpackTrfcr, hstorage]
  · intro hhard
    simp [writeEffect, unpackTrfcr, hhard]

/-! ### A read after a write -/

/-- `0x00000063` is the mask of TS, E1TRE and E0TRE: under it the reserved bits are 0 (10_state.md R24, R33). -/
theorem and_defined_fields (v : Word) :
    v &&& 0x00000063#32 = 0#25 ++ v.extractLsb' 5 2 ++ 0#3 ++ v.extractLsb' 1 1 ++ v.extractLsb' 0 1 := by
  have hmask : 0x00000063#32 =
      0#25 ++ BitVec.allOnes 2 ++ 0#3 ++ BitVec.allOnes 1 ++ BitVec.allOnes 1 := by decide
  calc v &&& 0x00000063#32
      = v.extractLsb' 7 25 ++ v.extractLsb' 5 2 ++ v.extractLsb' 2 3 ++ v.extractLsb' 1 1 ++ v.extractLsb' 0 1 &&&
          0#25 ++ BitVec.allOnes 2 ++ 0#3 ++ BitVec.allOnes 1 ++ BitVec.allOnes 1 := by rw [fields_append, hmask]
    _ = _ := by simp only [BitVec.and_append, BitVec.and_allOnes, BitVec.and_zero]

/-- Packing what a write of `v` stored gives `v` back, masked by what is stored. -/
theorem packTrfcr_unpackTrfcr (cfg : Config) (r : Trfcr) (v : Word) :
    packTrfcr cfg (unpackTrfcr cfg r v) (v.extractLsb' 5 2) = if cfg.res0Storage then v else v &&& 0x00000063#32 := by
  cases h : cfg.res0Storage with
  | true => simpa [packTrfcr, unpackTrfcr, h] using fields_append v
  | false => simpa [packTrfcr, unpackTrfcr, h] using (and_defined_fields v).symm

/-- Settles O24: after the write TS is known as the two bits stored, and the read packs what the write unpacked. -/
theorem readAfterWriteReturnsTheStoredBits : Obligations.ReadAfterWriteReturnsTheStoredBits := by
  intro w r s hw hr hreach hexr
  have hrunw := exec_of_reaches hreach
  have hrunr := exec_of_reaches (reaches_after hreach hexr)
  refine ⟨_, _, hrunw, hrunr, ?_⟩
  obtain ⟨ts, hval, hknown⟩ := exec_read_next_value hr hrunr
  rw [exec_write_next_trfcr hw hrunw] at hval hknown
  rw [hval, hknown _ rfl, exec_next_cfg hrunw, packTrfcr_unpackTrfcr]

end Sys2Proof.Machine
end

section
/-! PROOFS. The outcomes and what is traced (60_exceptions.md): the causes of each outcome of the check and of Undefined
(sections 1 and 4), EL0 (section 5), the verdict after a reset (section 6) and the traced timestamp (section 7). -/

namespace Sys2Proof.Machine

/-! ### The causes of each outcome -/

theorem firstArm_of_holds {arms : List (Bool × AccessOutcome)} (h : ∃ arm ∈ arms, arm.1 = true) :
    ∃ arm ∈ arms, arm.1 = true ∧ firstArm arms = arm.2 := by
  simpa only [List.append_nil] using firstArm_append_of_holds [] h

/-- What holds of Access and of the outcome of every arm that holds is true of a table's outcome. -/
theorem firstArm_of_forall_holds {P : AccessOutcome → Prop} {arms : List (Bool × AccessOutcome)} (haccess : P .access)
    (h : ∀ arm ∈ arms, arm.1 = true → P arm.2) : P (firstArm arms) := by
  by_cases hsome : ∃ arm ∈ arms, arm.1 = true
  · obtain ⟨arm, hmem, hholds, hout⟩ := firstArm_of_holds hsome
    rw [hout]
    exact h arm hmem hholds
  · rw [firstArm_eq_access_of_none_holds (by simpa using hsome)]
    exact haccess

/-- A table some arm of which holds has the one outcome that all its arms that hold have. -/
theorem firstArm_eq_of_forall_holds {o : AccessOutcome} {arms : List (Bool × AccessOutcome)}
    (hsome : ∃ arm ∈ arms, arm.1 = true) (h : ∀ arm ∈ arms, arm.1 = true → arm.2 = o) : firstArm arms = o := by
  obtain ⟨arm, hmem, hholds, hout⟩ := firstArm_of_holds hsome
  exact hout.trans (h arm hmem hholds)

theorem haltSdd_iff {c : Ctx} : haltSdd c = true ↔ c.halted = true ∧ c.edscrSdd = 1#1 := by
  simp [haltSdd]

/-- The trap control of the EL3 in use is set; at EL1 SDCR.TTRF counts outside Monitor mode only (R94, R95). -/
def El3TrapSet (g : Config) (c : Ctx) : Prop :=
  (el3In64 g c = true ∧ c.mdcrEl3Ttrf = 1#1) ∨
    (el3In32 g c = true ∧ (c.el = .el1 → notMonitor c = true) ∧ c.sdcrTtrf = 1#1)

/-- What an outcome of the check presupposes (60_exceptions.md R120 to R124, R126, R131). -/
def OutcomeCause (g : Config) (c : Ctx) : AccessOutcome → Prop
  | .access => True
  | .undefined => c.el = .el0 ∨ ((c.el = .el1 ∨ c.el = .el2) ∧ haltSdd c = true ∧ El3TrapSet g c)
  | .trapEL2A64 code =>
    code = systemAccessCode ∧ c.el = .el1 ∧ el2In64 c = true ∧ (c.hstrEl2T1 = 1#1 ∨ c.mdcrEl2Ttrf = 1#1)
  | .trapHyp code =>
    code = systemAccessCode ∧ c.el = .el1 ∧ el2In32 c = true ∧ (c.hstrT1 = 1#1 ∨ c.hdcrTtrf = 1#1)
  | .trapEL3A64 code =>
    code = systemAccessCode ∧ (c.el = .el1 ∨ c.el = .el2) ∧ el3In64 g c = true ∧ c.mdcrEl3Ttrf = 1#1 ∧
      ¬ haltSdd c = true
  | .trapMonitor =>
    c.sdcrTtrf = 1#1 ∧
      (((c.el = .el1 ∨ c.el = .el2) ∧ el3In32 g c = true ∧ ¬ haltSdd c = true ∧
          (c.el = .el1 → notMonitor c = true)) ∨
        (c.el = .el3 ∧ notMonitor c = true))

theorem outcomeCause_checkEl1 (g : Config) {c : Ctx} (hel : c.el = .el1) : OutcomeCause g c (checkEl1 g c) := by
  rw [checkEl1_eq_firstArm]
  refine firstArm_of_forall_holds trivial ?_
  cases hhalt : haltSdd c <;> simp +contextual [el1ArmsUpToEl2, el1ArmsToEl3, OutcomeCause, El3TrapSet, hel, hhalt]

theorem outcomeCause_checkEl2 (g : Config) {c : Ctx} (hel : c.el = .el2) : OutcomeCause g c (checkEl2 g c) := by
  rw [checkEl2_eq_firstArm]
  refine firstArm_of_forall_holds trivial ?_
  cases hhalt : haltSdd c <;> simp +contextual [el2Arms, OutcomeCause, El3TrapSet, hel, hhalt]

theorem outcomeCause_checkEl3 (g : Config) {c : Ctx} (hel : c.el = .el3) : OutcomeCause g c (checkEl3 c) := by
  by_cases h : c.mIsMonitor = false ∧ c.sdcrTtrf = 1#1
  · rw [checkEl3_eq_trapMonitor h]
    exact ⟨h.2, .inr ⟨hel, notMonitor_iff.2 h.1⟩⟩
  · rw [checkEl3_eq_access h]
    trivial

/-- Every outcome of the check has its cause. -/
theorem outcomeCause_accessCheck (g : Config) (c : Ctx) : OutcomeCause g c (accessCheck g c) := by
  cases hel : c.el with
  | el0 =>
    rw [accessCheck_of_el0 g hel]
    exact .inl hel
  | el1 =>
    rw [accessCheck_of_el1 g hel]
    exact outcomeCause_checkEl1 g hel
  | el2 =>
    rw [accessCheck_of_el2 g hel]
    exact outcomeCause_checkEl2 g hel
  | el3 =>
    rw [accessCheck_of_el3 g hel]
    exact outcomeCause_checkEl3 g hel

/-- Settles O17: each clause is the cause of its outcome, with the abbreviations of R92 written out. -/
theorem eachTrapComesOnlyFromItsControls : Obligations.EachTrapComesOnlyFromItsControls := by
  intro g c code
  have hcause := outcomeCause_accessCheck g c
  refine ⟨?_, ?_, ?_, ?_⟩ <;> intro h <;> rw [h] at hcause
  · obtain ⟨hcode, hel, hin, hcontrol⟩ := hcause
    obtain ⟨hon, ha64⟩ := el2In64_iff.1 hin
    exact ⟨hcode, hel, hon, ha64, hcontrol⟩
  · obtain ⟨hcode, hel, hin, hcontrol⟩ := hcause
    obtain ⟨hon, ha32⟩ := el2In32_iff.1 hin
    exact ⟨hcode, hel, hon, ha32, hcontrol⟩
  · obtain ⟨hcode, hel, hin, hcontrol, hrun⟩ := hcause
    obtain ⟨hhave, ha64⟩ := el3In64_iff.1 hin
    exact ⟨hcode, hel, hhave, ha64, hcontrol, mt haltSdd_iff.2 hrun⟩
  · obtain ⟨hcontrol, ⟨hel, hin, hrun, hmon⟩ | ⟨hel, hmon⟩⟩ := hcause
    · obtain ⟨hhave, ha32⟩ := el3In32_iff.1 hin
      exact ⟨hcontrol, .inl ⟨hel, hhave, ha32, mt haltSdd_iff.2 hrun, fun h1 => notMonitor_iff.1 (hmon h1)⟩⟩
    · exact ⟨hcontrol, .inr ⟨hel, notMonitor_iff.1 hmon⟩⟩

/-! ### The causes of Undefined -/

/-- Halted with SDD, a trap to EL3 that SDD_PRIORITY puts first is Undefined (arms E1.1 and E1.2 of R94). -/
theorem checkEl1_of_priority {g : Config} {c : Ctx} (hel : c.el = .el1) (hhalt : haltSdd c = true)
    (hset : El3TrapSet g c) (hprio : g.sddPriority = true) : checkEl1 g c = .undefined := by
  obtain ⟨h64, ht⟩ | ⟨h32, hmon, ht⟩ := hset
  · simp [checkEl1, hhalt, hprio, h64, ht]
  · simp [checkEl1, hhalt, hprio, h32, hmon hel, ht]

/-- Halted with SDD and without a trap to EL2, every arm of EL1 that holds is a trap to EL3 and gives Undefined. -/
theorem checkEl1_of_no_el2_trap {g : Config} {c : Ctx} (hel : c.el = .el1) (hhalt : haltSdd c = true)
    (hset : El3TrapSet g c) (hno : ¬ El2TrapSet c) : checkEl1 g c = .undefined := by
  rw [checkEl1_eq_firstArm]
  apply firstArm_eq_of_forall_holds
  · obtain ⟨h64, ht⟩ | ⟨h32, hmon, ht⟩ := hset
    · simp [el1ArmsUpToEl2, el1ArmsToEl3, h64, ht]
    · simp [el1ArmsUpToEl2, el1ArmsToEl3, h32, hmon hel, ht]
  · simp only [El2TrapSet, not_or, not_and] at hno
    obtain ⟨hno64, hno32⟩ := hno
    simp +contextual [el1ArmsUpToEl2, el1ArmsToEl3, hhalt, hno64, hno32]

/-- Above EL0 Undefined comes only from a trap to EL3 halted with SDD (60_exceptions.md R126). -/
theorem el3TrapSet_of_undefined {g : Config} {c : Ctx} (hel : c.el ≠ .el0) (h : accessCheck g c = .undefined) :
    haltSdd c = true ∧ El3TrapSet g c := by
  have hcause := outcomeCause_accessCheck g c
  rw [h] at hcause
  obtain ⟨-, hhalt, hset⟩ := hcause.resolve_left hel
  exact ⟨hhalt, hset⟩

theorem accessCheck_el1_eq_undefined_iff {g : Config} {c : Ctx} (hel : c.el = .el1) :
    accessCheck g c = .undefined ↔
      haltSdd c = true ∧ El3TrapSet g c ∧ (g.sddPriority = true ∨ ¬ El2TrapSet c) := by
  constructor
  · intro h
    obtain ⟨hhalt, hset⟩ := el3TrapSet_of_undefined (by simp [hel]) h
    refine ⟨hhalt, hset, or_iff_not_imp_right.2 fun h2 => ?_⟩
    rw [accessCheck_of_el1 g hel] at h
    obtain ⟨-, hprio⟩ | ho | ho := checkEl1_of_el2_trap g (not_not.1 h2)
    · exact hprio
    · simp [h] at ho
    · simp [h] at ho
  · rintro ⟨hhalt, hset, hprio | hno⟩ <;> rw [accessCheck_of_el1 g hel]
    · exact checkEl1_of_priority hel hhalt hset hprio
    · exact checkEl1_of_no_el2_trap hel hhalt hset hno

theorem accessCheck_el2_eq_undefined_iff {g : Config} {c : Ctx} (hel : c.el = .el2) :
    accessCheck g c = .undefined ↔ haltSdd c = true ∧ El3TrapSet g c := by
  constructor
  · exact el3TrapSet_of_undefined (by simp [hel])
  · rintro ⟨hhalt, hset⟩
    rw [accessCheck_of_el2 g hel, checkEl2_eq_firstArm]
    apply firstArm_eq_of_forall_holds
    · obtain ⟨h64, ht⟩ | ⟨h32, -, ht⟩ := hset <;> simp [el2Arms, *]
    · simp +contextual [el2Arms, hhalt]

theorem checkEl3_ne_undefined (c : Ctx) : checkEl3 c ≠ .undefined := by
  by_cases h : c.mIsMonitor = false ∧ c.sdcrTtrf = 1#1
  · simp [checkEl3_eq_trapMonitor h]
  · simp [checkEl3_eq_access h]

/-- Settles O18, level by level. -/
theorem undefinedExactlyWhereTheCausesSay : Obligations.UndefinedExactlyWhereTheCausesSay := by
  intro g c
  cases hel : c.el with
  | el0 => simp [accessCheck_of_el0 g hel]
  | el1 =>
    rw [accessCheck_el1_eq_undefined_iff hel, El3TrapSet, El2TrapSet, haltSdd_iff, el3In64_iff,
      el3In32_iff, el2In64_iff, el2In32_iff, notMonitor_iff]
    simp [hel, and_assoc, ← and_or_left]
  | el2 =>
    rw [accessCheck_el2_eq_undefined_iff hel, El3TrapSet, haltSdd_iff, el3In64_iff, el3In32_iff]
    simp [hel, and_assoc, ← and_or_left]
  | el3 => simp [accessCheck_of_el3 g hel, checkEl3_ne_undefined]

/-! ### Instructions at EL0 -/

/-- Settles O54: an instruction that completes has reached the register, and at EL0 the check is Undefined. -/
theorem noWordCompletesAtEl0 : Obligations.NoWordCompletesAtEl0 := by
  intro s w rest hi hel t h
  obtain ⟨hnil, -⟩ | ⟨e, rest', he, -⟩ | ⟨w', rest', i, -, -, hx⟩ := step_next h
  · simp [hi] at hnil
  · simp [hi] at he
  · obtain ⟨⟨-, -, haccess⟩, -⟩ := exec_next hx
    rw [accessCheck_of_el0 _ hel] at haccess
    cases haccess

/-! ### The verdict after a reset -/

/-- With no earlier value in use the verdict recorded is that of the register. -/
theorem evalVerdict_lastVerdict_of_held_nil {s : State} (h : s.held = []) :
    (applyEvent .evalVerdict s).lastVerdict = some (traceVerdict s.cfg s.ctx s.trfcr) := by
  rw [applyEvent, evalVerdict_lastVerdict, chosenValue_of_held_nil h]

/-- Both resets are the one operation (70_reset_and_hazards.md R151). -/
theorem applyEvent_of_reset {e : Event} (s : State) (h : e = .warmReset ∨ e = .coldReset) :
    applyEvent e s = warmReset s := by
  obtain rfl | rfl := h <;> rfl

/-- Settles O44: the reset leaves no earlier value in use and both enables 0. -/
theorem tracingIsProhibitedAfterAReset : Obligations.TracingIsProhibitedAfterAReset := by
  intro s e he hp hon hlevel
  rw [applyEvent_of_reset s he]
  obtain ⟨-, hreset⟩ | ⟨habs, -⟩ := warmReset_cases s
  · rw [hreset, evalVerdict_lastVerdict_of_held_nil rfl, Option.some_inj]
    obtain ⟨hel, hread⟩ | ⟨hel, hpl1⟩ := hlevel
    · exact ((e0treDecidesTheVerdictAtEl0 _ _ _ hp hel hon).2 hread).1 rfl
    · exact ((e1treDecidesTheVerdictInPl1Modes _ _ _ hp hel hon).1 hpl1).1 rfl
  · simp [hp] at habs

/-! ### The traced timestamp -/

theorem timebaseChoice_of_absent {g : Config} (c : Ctx) (r : Trfcr) (h : trfcrPresent g = false) :
    timebaseChoice g c r = .noSay := by
  simp [timebaseChoice, h]

theorem timebaseSample_of_choice {g : Config} {c : Ctx} {r : Trfcr} {k : TimebaseChoice} (free : Count)
    (h : timebaseChoice g c r = k) :
    timebaseSample g c free r = { choice := k, stamp := tracedTimestamp c free k } := by
  rw [timebaseSample, h]

/-- Settles O42: in both cases the choice is NoSay. -/
theorem ignoredOrAbsentRegisterDeterminesNoTimestamp : Obligations.IgnoredOrAbsentRegisterDeterminesNoTimestamp := by
  intro g c free r h
  apply timebaseSample_of_choice
  obtain habs | hignored := h
  · exact timebaseChoice_of_absent c r habs
  · exact timebaseChoice_of_tsIgnored g r (tsIgnored_eq_true_iff.2 hignored)

/-- With no earlier value in use the sample recorded is that of the register's choice. -/
theorem evalTimebase_lastTimebase_of_held_nil {s : State} {k : TimebaseChoice} (h : s.held = [])
    (hk : timebaseChoice s.cfg s.ctx s.trfcr = k) :
    (applyEvent .evalTimebase s).lastTimebase =
      some { choice := k, stamp := tracedTimestamp s.ctx (Config.freeStamp s.draws) k } := by
  rw [applyEvent, evalTimebase_lastTimebase, chosenValue_of_held_nil h, timebaseSample_of_choice _ hk]

/-- The four conditions of `PhysOffsetZero` (10_state.md R30). -/
theorem physOffsetZero_iff {c : Ctx} :
    physOffsetZero c = true ↔
      (c.el2Enabled = true ∧ c.el2IsAArch32 = true) ∨ c.cnthctlEl2Ecv = 0#1 ∨ c.scrEl3EcvEn = 0#1 ∨
        (c.hcrEl2E2h = 1#1 ∧ c.hcrEl2Tge = 1#1) := by
  simp [physOffsetZero, or_assoc]

/-- The subtraction of counts is that of naturals modulo 2^64 (60_exceptions.md D16). -/
theorem count_toNat_sub (x y : Count) : (x - y).toNat = (x.toNat + (2 ^ 64 - y.toNat)) % 2 ^ 64 := by
  rw [BitVec.toNat_sub, Nat.add_comm]

/-- Settles O43, by the value of TS; for Guest Physical by whether the offset is zero. -/
theorem tracedTimestampIsTheSelectedCount : Obligations.TracedTimestampIsTheSelectedCount := by
  intro s hp hon hhts hheld
  obtain ⟨hvirtual, hguest, hphysical⟩ := definedTimestampFieldSelectsItsTimebase s.cfg s.ctx s.trfcr hp hon hhts
  refine ⟨?_, ?_, ?_⟩
  · intro hts
    exact ⟨_, evalTimebase_lastTimebase_of_held_nil hheld (hvirtual hts), count_toNat_sub _ _⟩
  · intro hts hecv
    refine ⟨_, evalTimebase_lastTimebase_of_held_nil hheld (hguest hts hecv), ?_, ?_⟩
    · intro hzero
      rw [if_pos (physOffsetZero_iff.2 hzero), BitVec.sub_zero]
    · intro hnonzero
      rw [if_neg (mt physOffsetZero_iff.1 hnonzero), count_toNat_sub]
  · intro hts
    exact evalTimebase_lastTimebase_of_held_nil hheld (hphysical hts)

end Sys2Proof.Machine
end

section
/-! PROOFS. Resets and the hazard of a write (70_reset_and_hazards.md): what a reset does and leaves (section 1), and
which values stay usable by the trace functions between a write and the next ContextSync (section 3). -/

namespace Sys2Proof.Machine

/-! ### The earlier values in use -/

/-- Settles O57: the step's item is an event, which keeps, empties or extends them, or an instruction that reached the
register, which extends them when it is a write. -/
theorem onlyWritesSyncsAndResetsChangeTheEarlierValues :
    Obligations.OnlyWritesSyncsAndResetsChangeTheEarlierValues := by
  intro s t h
  obtain ⟨-, rfl⟩ | ⟨e, rest, hi, rfl⟩ | ⟨w, rest, i, hi, hd, hx⟩ := step_next h
  · exact .inl rfl
  · obtain hkeep | ⟨hempty, rfl | rfl | rfl⟩ | ⟨hadd, hp, v, rfl⟩ := applyEvent_held e { s with inputs := rest }
    · exact .inl hkeep
    · exact .inr (.inl ⟨hempty, .inl ⟨rest, hi⟩⟩)
    · exact .inr (.inl ⟨hempty, .inr (.inl ⟨rest, hi⟩)⟩)
    · exact .inr (.inl ⟨hempty, .inr (.inr ⟨rest, hi⟩)⟩)
    · exact .inr (.inr ⟨hadd, hp, .inl ⟨v, rest, hi⟩⟩)
  · cases hr : i.isRead with
    | true =>
      have hheld := exec_read_next_held hr hx
      exact .inl hheld
    | false =>
      obtain ⟨⟨hexec, hp, haccess⟩, rfl⟩ := exec_next hx
      have hheld := instrEffect_held i { s with inputs := rest }
      rw [hr] at hheld
      exact .inr (.inr ⟨hheld, hp, .inr ⟨w, rest, i, hi, hd, hr, hexec, hp, haccess⟩⟩)

/-- Without a write no step gives the register an earlier value. -/
theorem runsWithoutWrite_held_nil {s t : State} (hrun : RunsWithoutWrite s t) (hs : s.held = []) : t.held = [] := by
  induction hrun with
  | here => exact hs
  | more _ hnowrite hstep ih =>
    obtain hkeep | ⟨hempty, -⟩ | ⟨-, -, hwrite⟩ := onlyWritesSyncsAndResetsChangeTheEarlierValues _ _ hstep
    · exact hkeep.trans ih
    · exact hempty
    · exact absurd hwrite hnowrite

/-- Settles O46: the ContextSync empties the earlier values, and the run brings none back. -/
theorem contextSyncLeavesOnlyTheCurrentValue : Obligations.ContextSyncLeavesOnlyTheCurrentValue := by
  intro s
  refine ⟨contextSync_trfcr s, fun t hrun => ?_⟩
  have hnil : t.held = [] := runsWithoutWrite_held_nil hrun (contextSync_held s)
  exact ⟨hnil, evalVerdict_lastVerdict_of_held_nil hnil, _, evalTimebase_lastTimebase_of_held_nil hnil rfl⟩

/-! ### The values in use across writes -/

/-- A write through TRFCR_EL1 takes no value out of use: the one it replaces joins the earlier values. -/
theorem mem_usableValues_writeTrfcrEl1 {s : State} {r : Trfcr} (v : Word) (h : r ∈ usableValues s) :
    r ∈ usableValues (applyEvent (.writeTrfcrEl1 v) s) := by
  rw [applyEvent]
  obtain ⟨-, hwrite⟩ | ⟨-, habs⟩ := writeTrfcrEl1_cases s v
  · rw [hwrite, mem_usableValues, writeTrfcr_held]
    exact .inl h
  · rwa [habs]

theorem mem_usableValues_foldl_writeTrfcrEl1 {r : Trfcr} (ws : List Word) {s : State} (h : r ∈ usableValues s) :
    r ∈ usableValues (ws.foldl (fun t v => applyEvent (.writeTrfcrEl1 v) t) s) := by
  induction ws generalizing s with
  | nil => exact h
  | cons w ws ih => exact ih (mem_usableValues_writeTrfcrEl1 w h)

/-- Settles O47: the writes of the second list keep in use what was in use after the first. -/
theorem everyValueHeldSinceTheSyncStaysUsable : Obligations.EveryValueHeldSinceTheSyncStaysUsable := by
  intro vs ws s _ r hr
  rw [List.foldl_append]
  exact mem_usableValues_foldl_writeTrfcrEl1 ws hr

/-- Settles O45: the value is the one chosen among those in use. -/
theorem evaluationUsesAValueHeldSinceTheLastSync : Obligations.EvaluationUsesAValueHeldSinceTheLastSync := by
  intro s
  have hmem : chosenValue s ∈ s.held ++ [s.trfcr] := chosenValue_mem s
  exact ⟨⟨_, hmem, evalVerdict_lastVerdict s⟩, ⟨_, hmem, _, evalTimebase_lastTimebase s⟩, evalVerdict_trfcr s,
    evalTimebase_trfcr s, evalVerdict_held s, evalTimebase_held s⟩

/-! ### What a reset does -/

theorem warmReset_of_present {s : State} (h : trfcrPresent s.cfg = true) :
    warmReset s = { s with trfcr := resetTrfcr s.cfg s.trfcr s.draws, held := [], draws := s.draws + 1 } := by
  obtain ⟨-, hreset⟩ | ⟨habs, -⟩ := warmReset_cases s
  · exact hreset
  · simp [h] at habs

theorem warmReset_of_absent {s : State} (h : trfcrPresent s.cfg = false) : warmReset s = s := by
  obtain ⟨hp, -⟩ | ⟨-, hkeep⟩ := warmReset_cases s
  · simp [h] at hp
  · exact hkeep

/-- A reset leaves reserved bits that are not storage as they were (10_state.md R24, R33; log 26). -/
theorem resetTrfcr_reserved_of_hardwired {cfg : Config} (h : cfg.res0Storage = false) (r : Trfcr) (n : Nat) :
    (resetTrfcr cfg r n).resHi = r.resHi ∧ (resetTrfcr cfg r n).resLo = r.resLo := by
  simp [resetTrfcr, h]

/-- Settles O32, by presence of the register. -/
theorem resetsDoExactlyWhatTheRuleSays : Obligations.ResetsDoExactlyWhatTheRuleSays := by
  intro s e he
  rw [applyEvent_of_reset s he]
  refine ⟨warmReset_of_absent, fun hp => ⟨_, _, _, warmReset_of_present hp, ?_⟩⟩
  exact fun hhard => resetTrfcr_reserved_of_hardwired hhard s.trfcr s.draws

/-- With the reserved bits hardwired to 0 a reset leaves the values of 10_state.md R43, whatever draw it makes. -/
theorem resetTrfcr_eq_atReset {cfg : Config} {r : Trfcr} (n : Nat) (h : cfg.res0Storage = false)
    (hclear : ReservedClear cfg r) : resetTrfcr cfg r n = Trfcr.atReset := by
  obtain ⟨hhi, hlo⟩ := hclear h
  simp [resetTrfcr, Trfcr.atReset, h, hhi, hlo]

/-- Settles O33: at `State.reset` the register is present and its reserved bits are hardwired. -/
theorem firstStateIsTheStateAfterColdReset : Obligations.FirstStateIsTheStateAfterColdReset := by
  refine ⟨rfl, rfl, ?_⟩
  rw [applyEvent_of_reset _ (.inr rfl), warmReset_of_present rfl]
  exact resetTrfcr_eq_atReset _ rfl fun _ => ⟨rfl, rfl⟩

end Sys2Proof.Machine
end

section
/-! PROOFS. The words of 95_test_vectors.md section 2.8: a listed word is the encoder's word of its instruction, so it
decodes to it by the round trip; a word whose bits [31:28] are no head is refused. -/

namespace Sys2Proof

/-- The round trip read from the word: a word the encoder gives for an admitted instruction decodes to it. -/
theorem decode_of_encode_eq {i : Instr} {w : Word} (hwf : i.wellFormed = true) (henc : encode i = w) :
    decode i.iset w = .instr i := by
  subst henc
  exact decodeOfEncodeIsTheInstruction i hwf

/-- Settles O6: the first four words are encoded ones, and condition `0b1111` has no name (30_encoding.md R76). -/
theorem wordsOfTheSpecDecode : Obligations.WordsOfTheSpecDecode := by
  refine ⟨?mrcA32, ?mcrA32, ?mcrT32, ?mrcT32, ?cond1111⟩
  case mrcA32 => exact decode_of_encode_eq (i := .mrcTrfcrA32 .al 2#4) (by decide) (by decide)
  case mcrA32 => exact decode_of_encode_eq (i := .mcrTrfcrA32 .ne 3#4) (by decide) (by decide)
  case mcrT32 => exact decode_of_encode_eq (i := .mcrTrfcrT32 14#4) (by decide) (by decide)
  case mrcT32 => exact decode_of_encode_eq (i := .mrcTrfcrT32 12#4) (by decide) (by decide)
  case cond1111 => exact Machine.decode_of_headOf_none (by decide)

end Sys2Proof
end
